-- ==== Sys2Proof/Word.lean ====
section
/-! DEFINITION. The machine's byte and word (spec/00_scope.md R13): 8-bit data, 16-bit CPU addresses. -/

namespace Sys2Proof

/-- An 8-bit value, the spec's `u8`. -/
abbrev Byte := BitVec 8

/-- A 16-bit value, the spec's `u16`: a CPU address or the program counter. -/
abbrev Word := BitVec 16

/-- `{hi, lo}`, the 16-bit value with `hi` in its high byte (R13). -/
def word (hi lo : Byte) : Word := hi ++ lo

/-- `lo(w) = w[7:0]` (R13). -/
def loByte (w : Word) : Byte := w.setWidth 8

/-- `hi(w) = w[15:8]` (R13). -/
def hiByte (w : Word) : Byte := (w >>> 8).setWidth 8

end Sys2Proof
end

