-- ==== Sys2Proof/Syntax.lean ====
section
/-! DEFINITION. The instruction set as syntax: one constructor per row of spec/opcode_table.json (the 256 opcodes of
30_encoding.md R176, R177), each holding its operand as the spec numbers it; the addressing modes of R153 and the
76 mnemonics. Decode.lean says which bytes a constructor stands for. -/

namespace Sys2Proof

/-- The 13 addressing modes (R153). -/
inductive Mode where
  | imp
  | acc
  | imm
  | zp
  | zpX
  | zpY
  | abs
  | absX
  | absY
  | ind
  | izX
  | izY
  | rel
deriving DecidableEq, Repr

/-- The length in bytes a mode fixes, opcode included (R153). -/
def Mode.length : Mode → Nat
  | .imp => 1
  | .acc => 1
  | .imm => 2
  | .zp => 2
  | .zpX => 2
  | .zpY => 2
  | .abs => 3
  | .absX => 3
  | .absY => 3
  | .ind => 3
  | .izX => 2
  | .izY => 2
  | .rel => 2

/-- The eight modes that yield an effective address for data (R157 to R164), with their operand bytes. -/
inductive Place where
  | zp (a : Byte)
  | zpX (a : Byte)
  | zpY (a : Byte)
  | abs (a : Word)
  | absX (a : Word)
  | absY (a : Word)
  | izX (p : Byte)
  | izY (p : Byte)
deriving DecidableEq, Repr

/-- An operand: an addressing mode with its operand bytes (R153 to R167). -/
inductive Operand where
  | imp
  | acc
  | imm (m : Byte)
  | mem (p : Place)
  | ind (p : Word)
  | rel (d : Byte)
deriving DecidableEq, Repr

/-- The mode of a memory operand. -/
def Place.mode : Place → Mode
  | .zp _ => .zp
  | .zpX _ => .zpX
  | .zpY _ => .zpY
  | .abs _ => .abs
  | .absX _ => .absX
  | .absY _ => .absY
  | .izX _ => .izX
  | .izY _ => .izY

/-- The mode of an operand. -/
def Operand.mode : Operand → Mode
  | .imp => .imp
  | .acc => .acc
  | .imm _ => .imm
  | .mem p => p.mode
  | .ind _ => .ind
  | .rel _ => .rel

/-- The mnemonics of spec/opcode_table.json, in its order. -/
inductive Mnemonic where
  | brk
  | ora
  | jam
  | slo
  | nop
  | asl
  | php
  | anc
  | bpl
  | clc
  | jsr
  | and
  | rla
  | bit
  | rol
  | plp
  | bmi
  | sec
  | rti
  | eor
  | sre
  | lsr
  | pha
  | alr
  | jmp
  | bvc
  | cli
  | rts
  | adc
  | rra
  | ror
  | pla
  | arr
  | bvs
  | sei
  | sta
  | sax
  | sty
  | stx
  | dey
  | txa
  | ane
  | bcc
  | sha
  | tya
  | txs
  | tas
  | shy
  | shx
  | ldy
  | lda
  | ldx
  | lax
  | tay
  | tax
  | lxa
  | bcs
  | clv
  | tsx
  | las
  | cpy
  | cmp
  | dcp
  | dec
  | iny
  | dex
  | sbx
  | bne
  | cld
  | cpx
  | sbc
  | isc
  | inc
  | inx
  | beq
  | sed
deriving DecidableEq, Repr

/-- One constructor per row of spec/opcode_table.json, named by its mnemonic and its mode. Undocumented rows that
differ in their opcode alone (same mnemonic, mode, cycles and rule: the 12 JAM, the *NOP of one mode, the two ANC)
share a constructor, which holds the opcode in `op`; `Instr.wellFormed` says which opcodes it admits. Arguments:
`m` an immediate value, `a` an address, `p` a pointer, `d` a branch displacement. -/
inductive Instr where
  | brk
  | oraIzX (p : Byte)
  | jam (op : Byte)
  | sloIzX (p : Byte)
  | nopZp (op : Byte) (a : Byte)
  | oraZp (a : Byte)
  | aslZp (a : Byte)
  | sloZp (a : Byte)
  | php
  | oraImm (m : Byte)
  | aslAcc
  | ancImm (op : Byte) (m : Byte)
  | nopAbs (a : Word)
  | oraAbs (a : Word)
  | aslAbs (a : Word)
  | sloAbs (a : Word)
  | bpl (d : Byte)
  | oraIzY (p : Byte)
  | sloIzY (p : Byte)
  | nopZpX (op : Byte) (a : Byte)
  | oraZpX (a : Byte)
  | aslZpX (a : Byte)
  | sloZpX (a : Byte)
  | clc
  | oraAbsY (a : Word)
  | nopImp (op : Byte)
  | sloAbsY (a : Word)
  | nopAbsX (op : Byte) (a : Word)
  | oraAbsX (a : Word)
  | aslAbsX (a : Word)
  | sloAbsX (a : Word)
  | jsrAbs (a : Word)
  | andIzX (p : Byte)
  | rlaIzX (p : Byte)
  | bitZp (a : Byte)
  | andZp (a : Byte)
  | rolZp (a : Byte)
  | rlaZp (a : Byte)
  | plp
  | andImm (m : Byte)
  | rolAcc
  | bitAbs (a : Word)
  | andAbs (a : Word)
  | rolAbs (a : Word)
  | rlaAbs (a : Word)
  | bmi (d : Byte)
  | andIzY (p : Byte)
  | rlaIzY (p : Byte)
  | andZpX (a : Byte)
  | rolZpX (a : Byte)
  | rlaZpX (a : Byte)
  | sec
  | andAbsY (a : Word)
  | rlaAbsY (a : Word)
  | andAbsX (a : Word)
  | rolAbsX (a : Word)
  | rlaAbsX (a : Word)
  | rti
  | eorIzX (p : Byte)
  | sreIzX (p : Byte)
  | eorZp (a : Byte)
  | lsrZp (a : Byte)
  | sreZp (a : Byte)
  | pha
  | eorImm (m : Byte)
  | lsrAcc
  | alrImm (m : Byte)
  | jmpAbs (a : Word)
  | eorAbs (a : Word)
  | lsrAbs (a : Word)
  | sreAbs (a : Word)
  | bvc (d : Byte)
  | eorIzY (p : Byte)
  | sreIzY (p : Byte)
  | eorZpX (a : Byte)
  | lsrZpX (a : Byte)
  | sreZpX (a : Byte)
  | cli
  | eorAbsY (a : Word)
  | sreAbsY (a : Word)
  | eorAbsX (a : Word)
  | lsrAbsX (a : Word)
  | sreAbsX (a : Word)
  | rts
  | adcIzX (p : Byte)
  | rraIzX (p : Byte)
  | adcZp (a : Byte)
  | rorZp (a : Byte)
  | rraZp (a : Byte)
  | pla
  | adcImm (m : Byte)
  | rorAcc
  | arrImm (m : Byte)
  | jmpInd (p : Word)
  | adcAbs (a : Word)
  | rorAbs (a : Word)
  | rraAbs (a : Word)
  | bvs (d : Byte)
  | adcIzY (p : Byte)
  | rraIzY (p : Byte)
  | adcZpX (a : Byte)
  | rorZpX (a : Byte)
  | rraZpX (a : Byte)
  | sei
  | adcAbsY (a : Word)
  | rraAbsY (a : Word)
  | adcAbsX (a : Word)
  | rorAbsX (a : Word)
  | rraAbsX (a : Word)
  | nopImm (op : Byte) (m : Byte)
  | staIzX (p : Byte)
  | saxIzX (p : Byte)
  | styZp (a : Byte)
  | staZp (a : Byte)
  | stxZp (a : Byte)
  | saxZp (a : Byte)
  | dey
  | txa
  | aneImm (m : Byte)
  | styAbs (a : Word)
  | staAbs (a : Word)
  | stxAbs (a : Word)
  | saxAbs (a : Word)
  | bcc (d : Byte)
  | staIzY (p : Byte)
  | shaIzY (p : Byte)
  | styZpX (a : Byte)
  | staZpX (a : Byte)
  | stxZpY (a : Byte)
  | saxZpY (a : Byte)
  | tya
  | staAbsY (a : Word)
  | txs
  | tasAbsY (a : Word)
  | shyAbsX (a : Word)
  | staAbsX (a : Word)
  | shxAbsY (a : Word)
  | shaAbsY (a : Word)
  | ldyImm (m : Byte)
  | ldaIzX (p : Byte)
  | ldxImm (m : Byte)
  | laxIzX (p : Byte)
  | ldyZp (a : Byte)
  | ldaZp (a : Byte)
  | ldxZp (a : Byte)
  | laxZp (a : Byte)
  | tay
  | ldaImm (m : Byte)
  | tax
  | lxaImm (m : Byte)
  | ldyAbs (a : Word)
  | ldaAbs (a : Word)
  | ldxAbs (a : Word)
  | laxAbs (a : Word)
  | bcs (d : Byte)
  | ldaIzY (p : Byte)
  | laxIzY (p : Byte)
  | ldyZpX (a : Byte)
  | ldaZpX (a : Byte)
  | ldxZpY (a : Byte)
  | laxZpY (a : Byte)
  | clv
  | ldaAbsY (a : Word)
  | tsx
  | lasAbsY (a : Word)
  | ldyAbsX (a : Word)
  | ldaAbsX (a : Word)
  | ldxAbsY (a : Word)
  | laxAbsY (a : Word)
  | cpyImm (m : Byte)
  | cmpIzX (p : Byte)
  | dcpIzX (p : Byte)
  | cpyZp (a : Byte)
  | cmpZp (a : Byte)
  | decZp (a : Byte)
  | dcpZp (a : Byte)
  | iny
  | cmpImm (m : Byte)
  | dex
  | sbxImm (m : Byte)
  | cpyAbs (a : Word)
  | cmpAbs (a : Word)
  | decAbs (a : Word)
  | dcpAbs (a : Word)
  | bne (d : Byte)
  | cmpIzY (p : Byte)
  | dcpIzY (p : Byte)
  | cmpZpX (a : Byte)
  | decZpX (a : Byte)
  | dcpZpX (a : Byte)
  | cld
  | cmpAbsY (a : Word)
  | dcpAbsY (a : Word)
  | cmpAbsX (a : Word)
  | decAbsX (a : Word)
  | dcpAbsX (a : Word)
  | cpxImm (m : Byte)
  | sbcIzX (p : Byte)
  | iscIzX (p : Byte)
  | cpxZp (a : Byte)
  | sbcZp (a : Byte)
  | incZp (a : Byte)
  | iscZp (a : Byte)
  | inx
  | sbcImm (m : Byte)
  | nop
  | sbcImmEB (m : Byte)
  | cpxAbs (a : Word)
  | sbcAbs (a : Word)
  | incAbs (a : Word)
  | iscAbs (a : Word)
  | beq (d : Byte)
  | sbcIzY (p : Byte)
  | iscIzY (p : Byte)
  | sbcZpX (a : Byte)
  | incZpX (a : Byte)
  | iscZpX (a : Byte)
  | sed
  | sbcAbsY (a : Word)
  | iscAbsY (a : Word)
  | sbcAbsX (a : Word)
  | incAbsX (a : Word)
  | iscAbsX (a : Word)
deriving DecidableEq, Repr

end Sys2Proof
end

