-- ==== Sys2Proof/Decode.lean ====
section
/-! DEFINITION. Decoding and encoding (30_encoding.md R150, R153, R170, R176, R177). The opcode byte alone selects the
operation and the mode; the operand bytes follow, the low byte of an address first (R111). `decode` is total on
any bytes and rejects by name only a sequence that ends too early: no opcode value is reserved (R170). `encode` is
written from the per-opcode list R177, independently of the map `decode` reads. -/

namespace Sys2Proof

/-- Why `decode` refuses a byte sequence. -/
inductive DecodeError where
  | noOpcode
  | operandMissing (opcode : Byte)
deriving DecidableEq, Repr

/-- What an opcode stands for: an instruction of one byte, or one that takes an operand byte, or one that takes a
16-bit operand. -/
inductive Form where
  | bare (i : Instr)
  | byte (f : Byte → Instr)
  | addr (f : Word → Instr)

/-- The instruction length a form gives (R153). -/
def Form.length : Form → Nat
  | .bare _ => 1
  | .byte _ => 2
  | .addr _ => 3

/-- Row 0x of the opcode map (R176), columns x0 to xF. -/
def opcodeRow0 : List Form :=
  [.bare .brk, .byte .oraIzX, .bare (.jam 0x02), .byte .sloIzX,
   .byte (.nopZp 0x04), .byte .oraZp, .byte .aslZp, .byte .sloZp,
   .bare .php, .byte .oraImm, .bare .aslAcc, .byte (.ancImm 0x0B),
   .addr .nopAbs, .addr .oraAbs, .addr .aslAbs, .addr .sloAbs]

/-- Row 1x of the opcode map (R176), columns x0 to xF. -/
def opcodeRow1 : List Form :=
  [.byte .bpl, .byte .oraIzY, .bare (.jam 0x12), .byte .sloIzY,
   .byte (.nopZpX 0x14), .byte .oraZpX, .byte .aslZpX, .byte .sloZpX,
   .bare .clc, .addr .oraAbsY, .bare (.nopImp 0x1A), .addr .sloAbsY,
   .addr (.nopAbsX 0x1C), .addr .oraAbsX, .addr .aslAbsX, .addr .sloAbsX]

/-- Row 2x of the opcode map (R176), columns x0 to xF. -/
def opcodeRow2 : List Form :=
  [.addr .jsrAbs, .byte .andIzX, .bare (.jam 0x22), .byte .rlaIzX,
   .byte .bitZp, .byte .andZp, .byte .rolZp, .byte .rlaZp,
   .bare .plp, .byte .andImm, .bare .rolAcc, .byte (.ancImm 0x2B),
   .addr .bitAbs, .addr .andAbs, .addr .rolAbs, .addr .rlaAbs]

/-- Row 3x of the opcode map (R176), columns x0 to xF. -/
def opcodeRow3 : List Form :=
  [.byte .bmi, .byte .andIzY, .bare (.jam 0x32), .byte .rlaIzY,
   .byte (.nopZpX 0x34), .byte .andZpX, .byte .rolZpX, .byte .rlaZpX,
   .bare .sec, .addr .andAbsY, .bare (.nopImp 0x3A), .addr .rlaAbsY,
   .addr (.nopAbsX 0x3C), .addr .andAbsX, .addr .rolAbsX, .addr .rlaAbsX]

/-- Row 4x of the opcode map (R176), columns x0 to xF. -/
def opcodeRow4 : List Form :=
  [.bare .rti, .byte .eorIzX, .bare (.jam 0x42), .byte .sreIzX,
   .byte (.nopZp 0x44), .byte .eorZp, .byte .lsrZp, .byte .sreZp,
   .bare .pha, .byte .eorImm, .bare .lsrAcc, .byte .alrImm,
   .addr .jmpAbs, .addr .eorAbs, .addr .lsrAbs, .addr .sreAbs]

/-- Row 5x of the opcode map (R176), columns x0 to xF. -/
def opcodeRow5 : List Form :=
  [.byte .bvc, .byte .eorIzY, .bare (.jam 0x52), .byte .sreIzY,
   .byte (.nopZpX 0x54), .byte .eorZpX, .byte .lsrZpX, .byte .sreZpX,
   .bare .cli, .addr .eorAbsY, .bare (.nopImp 0x5A), .addr .sreAbsY,
   .addr (.nopAbsX 0x5C), .addr .eorAbsX, .addr .lsrAbsX, .addr .sreAbsX]

/-- Row 6x of the opcode map (R176), columns x0 to xF. -/
def opcodeRow6 : List Form :=
  [.bare .rts, .byte .adcIzX, .bare (.jam 0x62), .byte .rraIzX,
   .byte (.nopZp 0x64), .byte .adcZp, .byte .rorZp, .byte .rraZp,
   .bare .pla, .byte .adcImm, .bare .rorAcc, .byte .arrImm,
   .addr .jmpInd, .addr .adcAbs, .addr .rorAbs, .addr .rraAbs]

/-- Row 7x of the opcode map (R176), columns x0 to xF. -/
def opcodeRow7 : List Form :=
  [.byte .bvs, .byte .adcIzY, .bare (.jam 0x72), .byte .rraIzY,
   .byte (.nopZpX 0x74), .byte .adcZpX, .byte .rorZpX, .byte .rraZpX,
   .bare .sei, .addr .adcAbsY, .bare (.nopImp 0x7A), .addr .rraAbsY,
   .addr (.nopAbsX 0x7C), .addr .adcAbsX, .addr .rorAbsX, .addr .rraAbsX]

/-- Row 8x of the opcode map (R176), columns x0 to xF. -/
def opcodeRow8 : List Form :=
  [.byte (.nopImm 0x80), .byte .staIzX, .byte (.nopImm 0x82), .byte .saxIzX,
   .byte .styZp, .byte .staZp, .byte .stxZp, .byte .saxZp,
   .bare .dey, .byte (.nopImm 0x89), .bare .txa, .byte .aneImm,
   .addr .styAbs, .addr .staAbs, .addr .stxAbs, .addr .saxAbs]

/-- Row 9x of the opcode map (R176), columns x0 to xF. -/
def opcodeRow9 : List Form :=
  [.byte .bcc, .byte .staIzY, .bare (.jam 0x92), .byte .shaIzY,
   .byte .styZpX, .byte .staZpX, .byte .stxZpY, .byte .saxZpY,
   .bare .tya, .addr .staAbsY, .bare .txs, .addr .tasAbsY,
   .addr .shyAbsX, .addr .staAbsX, .addr .shxAbsY, .addr .shaAbsY]

/-- Row Ax of the opcode map (R176), columns x0 to xF. -/
def opcodeRowA : List Form :=
  [.byte .ldyImm, .byte .ldaIzX, .byte .ldxImm, .byte .laxIzX,
   .byte .ldyZp, .byte .ldaZp, .byte .ldxZp, .byte .laxZp,
   .bare .tay, .byte .ldaImm, .bare .tax, .byte .lxaImm,
   .addr .ldyAbs, .addr .ldaAbs, .addr .ldxAbs, .addr .laxAbs]

/-- Row Bx of the opcode map (R176), columns x0 to xF. -/
def opcodeRowB : List Form :=
  [.byte .bcs, .byte .ldaIzY, .bare (.jam 0xB2), .byte .laxIzY,
   .byte .ldyZpX, .byte .ldaZpX, .byte .ldxZpY, .byte .laxZpY,
   .bare .clv, .addr .ldaAbsY, .bare .tsx, .addr .lasAbsY,
   .addr .ldyAbsX, .addr .ldaAbsX, .addr .ldxAbsY, .addr .laxAbsY]

/-- Row Cx of the opcode map (R176), columns x0 to xF. -/
def opcodeRowC : List Form :=
  [.byte .cpyImm, .byte .cmpIzX, .byte (.nopImm 0xC2), .byte .dcpIzX,
   .byte .cpyZp, .byte .cmpZp, .byte .decZp, .byte .dcpZp,
   .bare .iny, .byte .cmpImm, .bare .dex, .byte .sbxImm,
   .addr .cpyAbs, .addr .cmpAbs, .addr .decAbs, .addr .dcpAbs]

/-- Row Dx of the opcode map (R176), columns x0 to xF. -/
def opcodeRowD : List Form :=
  [.byte .bne, .byte .cmpIzY, .bare (.jam 0xD2), .byte .dcpIzY,
   .byte (.nopZpX 0xD4), .byte .cmpZpX, .byte .decZpX, .byte .dcpZpX,
   .bare .cld, .addr .cmpAbsY, .bare (.nopImp 0xDA), .addr .dcpAbsY,
   .addr (.nopAbsX 0xDC), .addr .cmpAbsX, .addr .decAbsX, .addr .dcpAbsX]

/-- Row Ex of the opcode map (R176), columns x0 to xF. -/
def opcodeRowE : List Form :=
  [.byte .cpxImm, .byte .sbcIzX, .byte (.nopImm 0xE2), .byte .iscIzX,
   .byte .cpxZp, .byte .sbcZp, .byte .incZp, .byte .iscZp,
   .bare .inx, .byte .sbcImm, .bare .nop, .byte .sbcImmEB,
   .addr .cpxAbs, .addr .sbcAbs, .addr .incAbs, .addr .iscAbs]

/-- Row Fx of the opcode map (R176), columns x0 to xF. -/
def opcodeRowF : List Form :=
  [.byte .beq, .byte .sbcIzY, .bare (.jam 0xF2), .byte .iscIzY,
   .byte (.nopZpX 0xF4), .byte .sbcZpX, .byte .incZpX, .byte .iscZpX,
   .bare .sed, .addr .sbcAbsY, .bare (.nopImp 0xFA), .addr .iscAbsY,
   .addr (.nopAbsX 0xFC), .addr .sbcAbsX, .addr .incAbsX, .addr .iscAbsX]

/-- The opcode map (R176): row = high nibble, column = low nibble. -/
def opcodeMap : List (List Form) :=
  [opcodeRow0, opcodeRow1, opcodeRow2, opcodeRow3, opcodeRow4, opcodeRow5, opcodeRow6, opcodeRow7,
   opcodeRow8, opcodeRow9, opcodeRowA, opcodeRowB, opcodeRowC, opcodeRowD, opcodeRowE, opcodeRowF]

/-- `DECODE[op]` (R170). The default is never used: the map is 16 by 16. -/
def formOf (op : Byte) : Form :=
  (opcodeMap.getD (op.toNat / 16) []).getD (op.toNat % 16) (.bare .nop)

/-- Read one instruction from the front of a byte sequence and give the rest (R150). -/
def decode : List Byte → Except DecodeError (Instr × List Byte)
  | [] => .error .noOpcode
  | op :: rest =>
    match formOf op, rest with
    | .bare i, rest => .ok (i, rest)
    | .byte f, b :: rest => .ok (f b, rest)
    | .addr f, lo :: hi :: rest => .ok (f (word hi lo), rest)
    | .byte _, [] => .error (.operandMissing op)
    | .addr _, _ => .error (.operandMissing op)

/-- The bytes of a one-operand-byte instruction. -/
def bytes2 (op b : Byte) : List Byte := [op, b]

/-- The bytes of a two-operand-byte instruction, low byte first (R111). -/
def bytes3 (op : Byte) (a : Word) : List Byte := [op, loByte a, hiByte a]

/-- The bytes of an instruction (R177). -/
def encode : Instr → List Byte
  | .brk => [0x00]
  | .oraIzX p => bytes2 0x01 p
  | .jam op => [op]
  | .sloIzX p => bytes2 0x03 p
  | .nopZp op a => bytes2 op a
  | .oraZp a => bytes2 0x05 a
  | .aslZp a => bytes2 0x06 a
  | .sloZp a => bytes2 0x07 a
  | .php => [0x08]
  | .oraImm m => bytes2 0x09 m
  | .aslAcc => [0x0A]
  | .ancImm op m => bytes2 op m
  | .nopAbs a => bytes3 0x0C a
  | .oraAbs a => bytes3 0x0D a
  | .aslAbs a => bytes3 0x0E a
  | .sloAbs a => bytes3 0x0F a
  | .bpl d => bytes2 0x10 d
  | .oraIzY p => bytes2 0x11 p
  | .sloIzY p => bytes2 0x13 p
  | .nopZpX op a => bytes2 op a
  | .oraZpX a => bytes2 0x15 a
  | .aslZpX a => bytes2 0x16 a
  | .sloZpX a => bytes2 0x17 a
  | .clc => [0x18]
  | .oraAbsY a => bytes3 0x19 a
  | .nopImp op => [op]
  | .sloAbsY a => bytes3 0x1B a
  | .nopAbsX op a => bytes3 op a
  | .oraAbsX a => bytes3 0x1D a
  | .aslAbsX a => bytes3 0x1E a
  | .sloAbsX a => bytes3 0x1F a
  | .jsrAbs a => bytes3 0x20 a
  | .andIzX p => bytes2 0x21 p
  | .rlaIzX p => bytes2 0x23 p
  | .bitZp a => bytes2 0x24 a
  | .andZp a => bytes2 0x25 a
  | .rolZp a => bytes2 0x26 a
  | .rlaZp a => bytes2 0x27 a
  | .plp => [0x28]
  | .andImm m => bytes2 0x29 m
  | .rolAcc => [0x2A]
  | .bitAbs a => bytes3 0x2C a
  | .andAbs a => bytes3 0x2D a
  | .rolAbs a => bytes3 0x2E a
  | .rlaAbs a => bytes3 0x2F a
  | .bmi d => bytes2 0x30 d
  | .andIzY p => bytes2 0x31 p
  | .rlaIzY p => bytes2 0x33 p
  | .andZpX a => bytes2 0x35 a
  | .rolZpX a => bytes2 0x36 a
  | .rlaZpX a => bytes2 0x37 a
  | .sec => [0x38]
  | .andAbsY a => bytes3 0x39 a
  | .rlaAbsY a => bytes3 0x3B a
  | .andAbsX a => bytes3 0x3D a
  | .rolAbsX a => bytes3 0x3E a
  | .rlaAbsX a => bytes3 0x3F a
  | .rti => [0x40]
  | .eorIzX p => bytes2 0x41 p
  | .sreIzX p => bytes2 0x43 p
  | .eorZp a => bytes2 0x45 a
  | .lsrZp a => bytes2 0x46 a
  | .sreZp a => bytes2 0x47 a
  | .pha => [0x48]
  | .eorImm m => bytes2 0x49 m
  | .lsrAcc => [0x4A]
  | .alrImm m => bytes2 0x4B m
  | .jmpAbs a => bytes3 0x4C a
  | .eorAbs a => bytes3 0x4D a
  | .lsrAbs a => bytes3 0x4E a
  | .sreAbs a => bytes3 0x4F a
  | .bvc d => bytes2 0x50 d
  | .eorIzY p => bytes2 0x51 p
  | .sreIzY p => bytes2 0x53 p
  | .eorZpX a => bytes2 0x55 a
  | .lsrZpX a => bytes2 0x56 a
  | .sreZpX a => bytes2 0x57 a
  | .cli => [0x58]
  | .eorAbsY a => bytes3 0x59 a
  | .sreAbsY a => bytes3 0x5B a
  | .eorAbsX a => bytes3 0x5D a
  | .lsrAbsX a => bytes3 0x5E a
  | .sreAbsX a => bytes3 0x5F a
  | .rts => [0x60]
  | .adcIzX p => bytes2 0x61 p
  | .rraIzX p => bytes2 0x63 p
  | .adcZp a => bytes2 0x65 a
  | .rorZp a => bytes2 0x66 a
  | .rraZp a => bytes2 0x67 a
  | .pla => [0x68]
  | .adcImm m => bytes2 0x69 m
  | .rorAcc => [0x6A]
  | .arrImm m => bytes2 0x6B m
  | .jmpInd p => bytes3 0x6C p
  | .adcAbs a => bytes3 0x6D a
  | .rorAbs a => bytes3 0x6E a
  | .rraAbs a => bytes3 0x6F a
  | .bvs d => bytes2 0x70 d
  | .adcIzY p => bytes2 0x71 p
  | .rraIzY p => bytes2 0x73 p
  | .adcZpX a => bytes2 0x75 a
  | .rorZpX a => bytes2 0x76 a
  | .rraZpX a => bytes2 0x77 a
  | .sei => [0x78]
  | .adcAbsY a => bytes3 0x79 a
  | .rraAbsY a => bytes3 0x7B a
  | .adcAbsX a => bytes3 0x7D a
  | .rorAbsX a => bytes3 0x7E a
  | .rraAbsX a => bytes3 0x7F a
  | .nopImm op m => bytes2 op m
  | .staIzX p => bytes2 0x81 p
  | .saxIzX p => bytes2 0x83 p
  | .styZp a => bytes2 0x84 a
  | .staZp a => bytes2 0x85 a
  | .stxZp a => bytes2 0x86 a
  | .saxZp a => bytes2 0x87 a
  | .dey => [0x88]
  | .txa => [0x8A]
  | .aneImm m => bytes2 0x8B m
  | .styAbs a => bytes3 0x8C a
  | .staAbs a => bytes3 0x8D a
  | .stxAbs a => bytes3 0x8E a
  | .saxAbs a => bytes3 0x8F a
  | .bcc d => bytes2 0x90 d
  | .staIzY p => bytes2 0x91 p
  | .shaIzY p => bytes2 0x93 p
  | .styZpX a => bytes2 0x94 a
  | .staZpX a => bytes2 0x95 a
  | .stxZpY a => bytes2 0x96 a
  | .saxZpY a => bytes2 0x97 a
  | .tya => [0x98]
  | .staAbsY a => bytes3 0x99 a
  | .txs => [0x9A]
  | .tasAbsY a => bytes3 0x9B a
  | .shyAbsX a => bytes3 0x9C a
  | .staAbsX a => bytes3 0x9D a
  | .shxAbsY a => bytes3 0x9E a
  | .shaAbsY a => bytes3 0x9F a
  | .ldyImm m => bytes2 0xA0 m
  | .ldaIzX p => bytes2 0xA1 p
  | .ldxImm m => bytes2 0xA2 m
  | .laxIzX p => bytes2 0xA3 p
  | .ldyZp a => bytes2 0xA4 a
  | .ldaZp a => bytes2 0xA5 a
  | .ldxZp a => bytes2 0xA6 a
  | .laxZp a => bytes2 0xA7 a
  | .tay => [0xA8]
  | .ldaImm m => bytes2 0xA9 m
  | .tax => [0xAA]
  | .lxaImm m => bytes2 0xAB m
  | .ldyAbs a => bytes3 0xAC a
  | .ldaAbs a => bytes3 0xAD a
  | .ldxAbs a => bytes3 0xAE a
  | .laxAbs a => bytes3 0xAF a
  | .bcs d => bytes2 0xB0 d
  | .ldaIzY p => bytes2 0xB1 p
  | .laxIzY p => bytes2 0xB3 p
  | .ldyZpX a => bytes2 0xB4 a
  | .ldaZpX a => bytes2 0xB5 a
  | .ldxZpY a => bytes2 0xB6 a
  | .laxZpY a => bytes2 0xB7 a
  | .clv => [0xB8]
  | .ldaAbsY a => bytes3 0xB9 a
  | .tsx => [0xBA]
  | .lasAbsY a => bytes3 0xBB a
  | .ldyAbsX a => bytes3 0xBC a
  | .ldaAbsX a => bytes3 0xBD a
  | .ldxAbsY a => bytes3 0xBE a
  | .laxAbsY a => bytes3 0xBF a
  | .cpyImm m => bytes2 0xC0 m
  | .cmpIzX p => bytes2 0xC1 p
  | .dcpIzX p => bytes2 0xC3 p
  | .cpyZp a => bytes2 0xC4 a
  | .cmpZp a => bytes2 0xC5 a
  | .decZp a => bytes2 0xC6 a
  | .dcpZp a => bytes2 0xC7 a
  | .iny => [0xC8]
  | .cmpImm m => bytes2 0xC9 m
  | .dex => [0xCA]
  | .sbxImm m => bytes2 0xCB m
  | .cpyAbs a => bytes3 0xCC a
  | .cmpAbs a => bytes3 0xCD a
  | .decAbs a => bytes3 0xCE a
  | .dcpAbs a => bytes3 0xCF a
  | .bne d => bytes2 0xD0 d
  | .cmpIzY p => bytes2 0xD1 p
  | .dcpIzY p => bytes2 0xD3 p
  | .cmpZpX a => bytes2 0xD5 a
  | .decZpX a => bytes2 0xD6 a
  | .dcpZpX a => bytes2 0xD7 a
  | .cld => [0xD8]
  | .cmpAbsY a => bytes3 0xD9 a
  | .dcpAbsY a => bytes3 0xDB a
  | .cmpAbsX a => bytes3 0xDD a
  | .decAbsX a => bytes3 0xDE a
  | .dcpAbsX a => bytes3 0xDF a
  | .cpxImm m => bytes2 0xE0 m
  | .sbcIzX p => bytes2 0xE1 p
  | .iscIzX p => bytes2 0xE3 p
  | .cpxZp a => bytes2 0xE4 a
  | .sbcZp a => bytes2 0xE5 a
  | .incZp a => bytes2 0xE6 a
  | .iscZp a => bytes2 0xE7 a
  | .inx => [0xE8]
  | .sbcImm m => bytes2 0xE9 m
  | .nop => [0xEA]
  | .sbcImmEB m => bytes2 0xEB m
  | .cpxAbs a => bytes3 0xEC a
  | .sbcAbs a => bytes3 0xED a
  | .incAbs a => bytes3 0xEE a
  | .iscAbs a => bytes3 0xEF a
  | .beq d => bytes2 0xF0 d
  | .sbcIzY p => bytes2 0xF1 p
  | .iscIzY p => bytes2 0xF3 p
  | .sbcZpX a => bytes2 0xF5 a
  | .incZpX a => bytes2 0xF6 a
  | .iscZpX a => bytes2 0xF7 a
  | .sed => [0xF8]
  | .sbcAbsY a => bytes3 0xF9 a
  | .iscAbsY a => bytes3 0xFB a
  | .sbcAbsX a => bytes3 0xFD a
  | .incAbsX a => bytes3 0xFE a
  | .iscAbsX a => bytes3 0xFF a

/-- The mnemonic of a row of the table. -/
def Instr.mnemonic : Instr → Mnemonic
  | .brk => .brk
  | .oraIzX _ => .ora
  | .jam _ => .jam
  | .sloIzX _ => .slo
  | .nopZp _ _ => .nop
  | .oraZp _ => .ora
  | .aslZp _ => .asl
  | .sloZp _ => .slo
  | .php => .php
  | .oraImm _ => .ora
  | .aslAcc => .asl
  | .ancImm _ _ => .anc
  | .nopAbs _ => .nop
  | .oraAbs _ => .ora
  | .aslAbs _ => .asl
  | .sloAbs _ => .slo
  | .bpl _ => .bpl
  | .oraIzY _ => .ora
  | .sloIzY _ => .slo
  | .nopZpX _ _ => .nop
  | .oraZpX _ => .ora
  | .aslZpX _ => .asl
  | .sloZpX _ => .slo
  | .clc => .clc
  | .oraAbsY _ => .ora
  | .nopImp _ => .nop
  | .sloAbsY _ => .slo
  | .nopAbsX _ _ => .nop
  | .oraAbsX _ => .ora
  | .aslAbsX _ => .asl
  | .sloAbsX _ => .slo
  | .jsrAbs _ => .jsr
  | .andIzX _ => .and
  | .rlaIzX _ => .rla
  | .bitZp _ => .bit
  | .andZp _ => .and
  | .rolZp _ => .rol
  | .rlaZp _ => .rla
  | .plp => .plp
  | .andImm _ => .and
  | .rolAcc => .rol
  | .bitAbs _ => .bit
  | .andAbs _ => .and
  | .rolAbs _ => .rol
  | .rlaAbs _ => .rla
  | .bmi _ => .bmi
  | .andIzY _ => .and
  | .rlaIzY _ => .rla
  | .andZpX _ => .and
  | .rolZpX _ => .rol
  | .rlaZpX _ => .rla
  | .sec => .sec
  | .andAbsY _ => .and
  | .rlaAbsY _ => .rla
  | .andAbsX _ => .and
  | .rolAbsX _ => .rol
  | .rlaAbsX _ => .rla
  | .rti => .rti
  | .eorIzX _ => .eor
  | .sreIzX _ => .sre
  | .eorZp _ => .eor
  | .lsrZp _ => .lsr
  | .sreZp _ => .sre
  | .pha => .pha
  | .eorImm _ => .eor
  | .lsrAcc => .lsr
  | .alrImm _ => .alr
  | .jmpAbs _ => .jmp
  | .eorAbs _ => .eor
  | .lsrAbs _ => .lsr
  | .sreAbs _ => .sre
  | .bvc _ => .bvc
  | .eorIzY _ => .eor
  | .sreIzY _ => .sre
  | .eorZpX _ => .eor
  | .lsrZpX _ => .lsr
  | .sreZpX _ => .sre
  | .cli => .cli
  | .eorAbsY _ => .eor
  | .sreAbsY _ => .sre
  | .eorAbsX _ => .eor
  | .lsrAbsX _ => .lsr
  | .sreAbsX _ => .sre
  | .rts => .rts
  | .adcIzX _ => .adc
  | .rraIzX _ => .rra
  | .adcZp _ => .adc
  | .rorZp _ => .ror
  | .rraZp _ => .rra
  | .pla => .pla
  | .adcImm _ => .adc
  | .rorAcc => .ror
  | .arrImm _ => .arr
  | .jmpInd _ => .jmp
  | .adcAbs _ => .adc
  | .rorAbs _ => .ror
  | .rraAbs _ => .rra
  | .bvs _ => .bvs
  | .adcIzY _ => .adc
  | .rraIzY _ => .rra
  | .adcZpX _ => .adc
  | .rorZpX _ => .ror
  | .rraZpX _ => .rra
  | .sei => .sei
  | .adcAbsY _ => .adc
  | .rraAbsY _ => .rra
  | .adcAbsX _ => .adc
  | .rorAbsX _ => .ror
  | .rraAbsX _ => .rra
  | .nopImm _ _ => .nop
  | .staIzX _ => .sta
  | .saxIzX _ => .sax
  | .styZp _ => .sty
  | .staZp _ => .sta
  | .stxZp _ => .stx
  | .saxZp _ => .sax
  | .dey => .dey
  | .txa => .txa
  | .aneImm _ => .ane
  | .styAbs _ => .sty
  | .staAbs _ => .sta
  | .stxAbs _ => .stx
  | .saxAbs _ => .sax
  | .bcc _ => .bcc
  | .staIzY _ => .sta
  | .shaIzY _ => .sha
  | .styZpX _ => .sty
  | .staZpX _ => .sta
  | .stxZpY _ => .stx
  | .saxZpY _ => .sax
  | .tya => .tya
  | .staAbsY _ => .sta
  | .txs => .txs
  | .tasAbsY _ => .tas
  | .shyAbsX _ => .shy
  | .staAbsX _ => .sta
  | .shxAbsY _ => .shx
  | .shaAbsY _ => .sha
  | .ldyImm _ => .ldy
  | .ldaIzX _ => .lda
  | .ldxImm _ => .ldx
  | .laxIzX _ => .lax
  | .ldyZp _ => .ldy
  | .ldaZp _ => .lda
  | .ldxZp _ => .ldx
  | .laxZp _ => .lax
  | .tay => .tay
  | .ldaImm _ => .lda
  | .tax => .tax
  | .lxaImm _ => .lxa
  | .ldyAbs _ => .ldy
  | .ldaAbs _ => .lda
  | .ldxAbs _ => .ldx
  | .laxAbs _ => .lax
  | .bcs _ => .bcs
  | .ldaIzY _ => .lda
  | .laxIzY _ => .lax
  | .ldyZpX _ => .ldy
  | .ldaZpX _ => .lda
  | .ldxZpY _ => .ldx
  | .laxZpY _ => .lax
  | .clv => .clv
  | .ldaAbsY _ => .lda
  | .tsx => .tsx
  | .lasAbsY _ => .las
  | .ldyAbsX _ => .ldy
  | .ldaAbsX _ => .lda
  | .ldxAbsY _ => .ldx
  | .laxAbsY _ => .lax
  | .cpyImm _ => .cpy
  | .cmpIzX _ => .cmp
  | .dcpIzX _ => .dcp
  | .cpyZp _ => .cpy
  | .cmpZp _ => .cmp
  | .decZp _ => .dec
  | .dcpZp _ => .dcp
  | .iny => .iny
  | .cmpImm _ => .cmp
  | .dex => .dex
  | .sbxImm _ => .sbx
  | .cpyAbs _ => .cpy
  | .cmpAbs _ => .cmp
  | .decAbs _ => .dec
  | .dcpAbs _ => .dcp
  | .bne _ => .bne
  | .cmpIzY _ => .cmp
  | .dcpIzY _ => .dcp
  | .cmpZpX _ => .cmp
  | .decZpX _ => .dec
  | .dcpZpX _ => .dcp
  | .cld => .cld
  | .cmpAbsY _ => .cmp
  | .dcpAbsY _ => .dcp
  | .cmpAbsX _ => .cmp
  | .decAbsX _ => .dec
  | .dcpAbsX _ => .dcp
  | .cpxImm _ => .cpx
  | .sbcIzX _ => .sbc
  | .iscIzX _ => .isc
  | .cpxZp _ => .cpx
  | .sbcZp _ => .sbc
  | .incZp _ => .inc
  | .iscZp _ => .isc
  | .inx => .inx
  | .sbcImm _ => .sbc
  | .nop => .nop
  | .sbcImmEB _ => .sbc
  | .cpxAbs _ => .cpx
  | .sbcAbs _ => .sbc
  | .incAbs _ => .inc
  | .iscAbs _ => .isc
  | .beq _ => .beq
  | .sbcIzY _ => .sbc
  | .iscIzY _ => .isc
  | .sbcZpX _ => .sbc
  | .incZpX _ => .inc
  | .iscZpX _ => .isc
  | .sed => .sed
  | .sbcAbsY _ => .sbc
  | .iscAbsY _ => .isc
  | .sbcAbsX _ => .sbc
  | .incAbsX _ => .inc
  | .iscAbsX _ => .isc

/-- The operand of an instruction: its mode and operand bytes (R177, R153). -/
def Instr.operand : Instr → Operand
  | .brk => .imp
  | .oraIzX p => .mem (.izX p)
  | .jam _ => .imp
  | .sloIzX p => .mem (.izX p)
  | .nopZp _ a => .mem (.zp a)
  | .oraZp a => .mem (.zp a)
  | .aslZp a => .mem (.zp a)
  | .sloZp a => .mem (.zp a)
  | .php => .imp
  | .oraImm m => .imm m
  | .aslAcc => .acc
  | .ancImm _ m => .imm m
  | .nopAbs a => .mem (.abs a)
  | .oraAbs a => .mem (.abs a)
  | .aslAbs a => .mem (.abs a)
  | .sloAbs a => .mem (.abs a)
  | .bpl d => .rel d
  | .oraIzY p => .mem (.izY p)
  | .sloIzY p => .mem (.izY p)
  | .nopZpX _ a => .mem (.zpX a)
  | .oraZpX a => .mem (.zpX a)
  | .aslZpX a => .mem (.zpX a)
  | .sloZpX a => .mem (.zpX a)
  | .clc => .imp
  | .oraAbsY a => .mem (.absY a)
  | .nopImp _ => .imp
  | .sloAbsY a => .mem (.absY a)
  | .nopAbsX _ a => .mem (.absX a)
  | .oraAbsX a => .mem (.absX a)
  | .aslAbsX a => .mem (.absX a)
  | .sloAbsX a => .mem (.absX a)
  | .jsrAbs a => .mem (.abs a)
  | .andIzX p => .mem (.izX p)
  | .rlaIzX p => .mem (.izX p)
  | .bitZp a => .mem (.zp a)
  | .andZp a => .mem (.zp a)
  | .rolZp a => .mem (.zp a)
  | .rlaZp a => .mem (.zp a)
  | .plp => .imp
  | .andImm m => .imm m
  | .rolAcc => .acc
  | .bitAbs a => .mem (.abs a)
  | .andAbs a => .mem (.abs a)
  | .rolAbs a => .mem (.abs a)
  | .rlaAbs a => .mem (.abs a)
  | .bmi d => .rel d
  | .andIzY p => .mem (.izY p)
  | .rlaIzY p => .mem (.izY p)
  | .andZpX a => .mem (.zpX a)
  | .rolZpX a => .mem (.zpX a)
  | .rlaZpX a => .mem (.zpX a)
  | .sec => .imp
  | .andAbsY a => .mem (.absY a)
  | .rlaAbsY a => .mem (.absY a)
  | .andAbsX a => .mem (.absX a)
  | .rolAbsX a => .mem (.absX a)
  | .rlaAbsX a => .mem (.absX a)
  | .rti => .imp
  | .eorIzX p => .mem (.izX p)
  | .sreIzX p => .mem (.izX p)
  | .eorZp a => .mem (.zp a)
  | .lsrZp a => .mem (.zp a)
  | .sreZp a => .mem (.zp a)
  | .pha => .imp
  | .eorImm m => .imm m
  | .lsrAcc => .acc
  | .alrImm m => .imm m
  | .jmpAbs a => .mem (.abs a)
  | .eorAbs a => .mem (.abs a)
  | .lsrAbs a => .mem (.abs a)
  | .sreAbs a => .mem (.abs a)
  | .bvc d => .rel d
  | .eorIzY p => .mem (.izY p)
  | .sreIzY p => .mem (.izY p)
  | .eorZpX a => .mem (.zpX a)
  | .lsrZpX a => .mem (.zpX a)
  | .sreZpX a => .mem (.zpX a)
  | .cli => .imp
  | .eorAbsY a => .mem (.absY a)
  | .sreAbsY a => .mem (.absY a)
  | .eorAbsX a => .mem (.absX a)
  | .lsrAbsX a => .mem (.absX a)
  | .sreAbsX a => .mem (.absX a)
  | .rts => .imp
  | .adcIzX p => .mem (.izX p)
  | .rraIzX p => .mem (.izX p)
  | .adcZp a => .mem (.zp a)
  | .rorZp a => .mem (.zp a)
  | .rraZp a => .mem (.zp a)
  | .pla => .imp
  | .adcImm m => .imm m
  | .rorAcc => .acc
  | .arrImm m => .imm m
  | .jmpInd p => .ind p
  | .adcAbs a => .mem (.abs a)
  | .rorAbs a => .mem (.abs a)
  | .rraAbs a => .mem (.abs a)
  | .bvs d => .rel d
  | .adcIzY p => .mem (.izY p)
  | .rraIzY p => .mem (.izY p)
  | .adcZpX a => .mem (.zpX a)
  | .rorZpX a => .mem (.zpX a)
  | .rraZpX a => .mem (.zpX a)
  | .sei => .imp
  | .adcAbsY a => .mem (.absY a)
  | .rraAbsY a => .mem (.absY a)
  | .adcAbsX a => .mem (.absX a)
  | .rorAbsX a => .mem (.absX a)
  | .rraAbsX a => .mem (.absX a)
  | .nopImm _ m => .imm m
  | .staIzX p => .mem (.izX p)
  | .saxIzX p => .mem (.izX p)
  | .styZp a => .mem (.zp a)
  | .staZp a => .mem (.zp a)
  | .stxZp a => .mem (.zp a)
  | .saxZp a => .mem (.zp a)
  | .dey => .imp
  | .txa => .imp
  | .aneImm m => .imm m
  | .styAbs a => .mem (.abs a)
  | .staAbs a => .mem (.abs a)
  | .stxAbs a => .mem (.abs a)
  | .saxAbs a => .mem (.abs a)
  | .bcc d => .rel d
  | .staIzY p => .mem (.izY p)
  | .shaIzY p => .mem (.izY p)
  | .styZpX a => .mem (.zpX a)
  | .staZpX a => .mem (.zpX a)
  | .stxZpY a => .mem (.zpY a)
  | .saxZpY a => .mem (.zpY a)
  | .tya => .imp
  | .staAbsY a => .mem (.absY a)
  | .txs => .imp
  | .tasAbsY a => .mem (.absY a)
  | .shyAbsX a => .mem (.absX a)
  | .staAbsX a => .mem (.absX a)
  | .shxAbsY a => .mem (.absY a)
  | .shaAbsY a => .mem (.absY a)
  | .ldyImm m => .imm m
  | .ldaIzX p => .mem (.izX p)
  | .ldxImm m => .imm m
  | .laxIzX p => .mem (.izX p)
  | .ldyZp a => .mem (.zp a)
  | .ldaZp a => .mem (.zp a)
  | .ldxZp a => .mem (.zp a)
  | .laxZp a => .mem (.zp a)
  | .tay => .imp
  | .ldaImm m => .imm m
  | .tax => .imp
  | .lxaImm m => .imm m
  | .ldyAbs a => .mem (.abs a)
  | .ldaAbs a => .mem (.abs a)
  | .ldxAbs a => .mem (.abs a)
  | .laxAbs a => .mem (.abs a)
  | .bcs d => .rel d
  | .ldaIzY p => .mem (.izY p)
  | .laxIzY p => .mem (.izY p)
  | .ldyZpX a => .mem (.zpX a)
  | .ldaZpX a => .mem (.zpX a)
  | .ldxZpY a => .mem (.zpY a)
  | .laxZpY a => .mem (.zpY a)
  | .clv => .imp
  | .ldaAbsY a => .mem (.absY a)
  | .tsx => .imp
  | .lasAbsY a => .mem (.absY a)
  | .ldyAbsX a => .mem (.absX a)
  | .ldaAbsX a => .mem (.absX a)
  | .ldxAbsY a => .mem (.absY a)
  | .laxAbsY a => .mem (.absY a)
  | .cpyImm m => .imm m
  | .cmpIzX p => .mem (.izX p)
  | .dcpIzX p => .mem (.izX p)
  | .cpyZp a => .mem (.zp a)
  | .cmpZp a => .mem (.zp a)
  | .decZp a => .mem (.zp a)
  | .dcpZp a => .mem (.zp a)
  | .iny => .imp
  | .cmpImm m => .imm m
  | .dex => .imp
  | .sbxImm m => .imm m
  | .cpyAbs a => .mem (.abs a)
  | .cmpAbs a => .mem (.abs a)
  | .decAbs a => .mem (.abs a)
  | .dcpAbs a => .mem (.abs a)
  | .bne d => .rel d
  | .cmpIzY p => .mem (.izY p)
  | .dcpIzY p => .mem (.izY p)
  | .cmpZpX a => .mem (.zpX a)
  | .decZpX a => .mem (.zpX a)
  | .dcpZpX a => .mem (.zpX a)
  | .cld => .imp
  | .cmpAbsY a => .mem (.absY a)
  | .dcpAbsY a => .mem (.absY a)
  | .cmpAbsX a => .mem (.absX a)
  | .decAbsX a => .mem (.absX a)
  | .dcpAbsX a => .mem (.absX a)
  | .cpxImm m => .imm m
  | .sbcIzX p => .mem (.izX p)
  | .iscIzX p => .mem (.izX p)
  | .cpxZp a => .mem (.zp a)
  | .sbcZp a => .mem (.zp a)
  | .incZp a => .mem (.zp a)
  | .iscZp a => .mem (.zp a)
  | .inx => .imp
  | .sbcImm m => .imm m
  | .nop => .imp
  | .sbcImmEB m => .imm m
  | .cpxAbs a => .mem (.abs a)
  | .sbcAbs a => .mem (.abs a)
  | .incAbs a => .mem (.abs a)
  | .iscAbs a => .mem (.abs a)
  | .beq d => .rel d
  | .sbcIzY p => .mem (.izY p)
  | .iscIzY p => .mem (.izY p)
  | .sbcZpX a => .mem (.zpX a)
  | .incZpX a => .mem (.zpX a)
  | .iscZpX a => .mem (.zpX a)
  | .sed => .imp
  | .sbcAbsY a => .mem (.absY a)
  | .iscAbsY a => .mem (.absY a)
  | .sbcAbsX a => .mem (.absX a)
  | .incAbsX a => .mem (.absX a)
  | .iscAbsX a => .mem (.absX a)

/-- The opcodes that a constructor with an opcode argument admits (R392, R393, R402); the other constructors have
one opcode each, fixed by `encode`. -/
def Instr.opcodeAdmitted : Instr → Bool
  | .brk => true
  | .oraIzX _ => true
  | .jam op => op ∈ [0x02#8, 0x12#8, 0x22#8, 0x32#8, 0x42#8, 0x52#8, 0x62#8, 0x72#8, 0x92#8, 0xB2#8, 0xD2#8, 0xF2#8]
  | .sloIzX _ => true
  | .nopZp op _ => op ∈ [0x04#8, 0x44#8, 0x64#8]
  | .oraZp _ => true
  | .aslZp _ => true
  | .sloZp _ => true
  | .php => true
  | .oraImm _ => true
  | .aslAcc => true
  | .ancImm op _ => op ∈ [0x0B#8, 0x2B#8]
  | .nopAbs _ => true
  | .oraAbs _ => true
  | .aslAbs _ => true
  | .sloAbs _ => true
  | .bpl _ => true
  | .oraIzY _ => true
  | .sloIzY _ => true
  | .nopZpX op _ => op ∈ [0x14#8, 0x34#8, 0x54#8, 0x74#8, 0xD4#8, 0xF4#8]
  | .oraZpX _ => true
  | .aslZpX _ => true
  | .sloZpX _ => true
  | .clc => true
  | .oraAbsY _ => true
  | .nopImp op => op ∈ [0x1A#8, 0x3A#8, 0x5A#8, 0x7A#8, 0xDA#8, 0xFA#8]
  | .sloAbsY _ => true
  | .nopAbsX op _ => op ∈ [0x1C#8, 0x3C#8, 0x5C#8, 0x7C#8, 0xDC#8, 0xFC#8]
  | .oraAbsX _ => true
  | .aslAbsX _ => true
  | .sloAbsX _ => true
  | .jsrAbs _ => true
  | .andIzX _ => true
  | .rlaIzX _ => true
  | .bitZp _ => true
  | .andZp _ => true
  | .rolZp _ => true
  | .rlaZp _ => true
  | .plp => true
  | .andImm _ => true
  | .rolAcc => true
  | .bitAbs _ => true
  | .andAbs _ => true
  | .rolAbs _ => true
  | .rlaAbs _ => true
  | .bmi _ => true
  | .andIzY _ => true
  | .rlaIzY _ => true
  | .andZpX _ => true
  | .rolZpX _ => true
  | .rlaZpX _ => true
  | .sec => true
  | .andAbsY _ => true
  | .rlaAbsY _ => true
  | .andAbsX _ => true
  | .rolAbsX _ => true
  | .rlaAbsX _ => true
  | .rti => true
  | .eorIzX _ => true
  | .sreIzX _ => true
  | .eorZp _ => true
  | .lsrZp _ => true
  | .sreZp _ => true
  | .pha => true
  | .eorImm _ => true
  | .lsrAcc => true
  | .alrImm _ => true
  | .jmpAbs _ => true
  | .eorAbs _ => true
  | .lsrAbs _ => true
  | .sreAbs _ => true
  | .bvc _ => true
  | .eorIzY _ => true
  | .sreIzY _ => true
  | .eorZpX _ => true
  | .lsrZpX _ => true
  | .sreZpX _ => true
  | .cli => true
  | .eorAbsY _ => true
  | .sreAbsY _ => true
  | .eorAbsX _ => true
  | .lsrAbsX _ => true
  | .sreAbsX _ => true
  | .rts => true
  | .adcIzX _ => true
  | .rraIzX _ => true
  | .adcZp _ => true
  | .rorZp _ => true
  | .rraZp _ => true
  | .pla => true
  | .adcImm _ => true
  | .rorAcc => true
  | .arrImm _ => true
  | .jmpInd _ => true
  | .adcAbs _ => true
  | .rorAbs _ => true
  | .rraAbs _ => true
  | .bvs _ => true
  | .adcIzY _ => true
  | .rraIzY _ => true
  | .adcZpX _ => true
  | .rorZpX _ => true
  | .rraZpX _ => true
  | .sei => true
  | .adcAbsY _ => true
  | .rraAbsY _ => true
  | .adcAbsX _ => true
  | .rorAbsX _ => true
  | .rraAbsX _ => true
  | .nopImm op _ => op ∈ [0x80#8, 0x82#8, 0x89#8, 0xC2#8, 0xE2#8]
  | .staIzX _ => true
  | .saxIzX _ => true
  | .styZp _ => true
  | .staZp _ => true
  | .stxZp _ => true
  | .saxZp _ => true
  | .dey => true
  | .txa => true
  | .aneImm _ => true
  | .styAbs _ => true
  | .staAbs _ => true
  | .stxAbs _ => true
  | .saxAbs _ => true
  | .bcc _ => true
  | .staIzY _ => true
  | .shaIzY _ => true
  | .styZpX _ => true
  | .staZpX _ => true
  | .stxZpY _ => true
  | .saxZpY _ => true
  | .tya => true
  | .staAbsY _ => true
  | .txs => true
  | .tasAbsY _ => true
  | .shyAbsX _ => true
  | .staAbsX _ => true
  | .shxAbsY _ => true
  | .shaAbsY _ => true
  | .ldyImm _ => true
  | .ldaIzX _ => true
  | .ldxImm _ => true
  | .laxIzX _ => true
  | .ldyZp _ => true
  | .ldaZp _ => true
  | .ldxZp _ => true
  | .laxZp _ => true
  | .tay => true
  | .ldaImm _ => true
  | .tax => true
  | .lxaImm _ => true
  | .ldyAbs _ => true
  | .ldaAbs _ => true
  | .ldxAbs _ => true
  | .laxAbs _ => true
  | .bcs _ => true
  | .ldaIzY _ => true
  | .laxIzY _ => true
  | .ldyZpX _ => true
  | .ldaZpX _ => true
  | .ldxZpY _ => true
  | .laxZpY _ => true
  | .clv => true
  | .ldaAbsY _ => true
  | .tsx => true
  | .lasAbsY _ => true
  | .ldyAbsX _ => true
  | .ldaAbsX _ => true
  | .ldxAbsY _ => true
  | .laxAbsY _ => true
  | .cpyImm _ => true
  | .cmpIzX _ => true
  | .dcpIzX _ => true
  | .cpyZp _ => true
  | .cmpZp _ => true
  | .decZp _ => true
  | .dcpZp _ => true
  | .iny => true
  | .cmpImm _ => true
  | .dex => true
  | .sbxImm _ => true
  | .cpyAbs _ => true
  | .cmpAbs _ => true
  | .decAbs _ => true
  | .dcpAbs _ => true
  | .bne _ => true
  | .cmpIzY _ => true
  | .dcpIzY _ => true
  | .cmpZpX _ => true
  | .decZpX _ => true
  | .dcpZpX _ => true
  | .cld => true
  | .cmpAbsY _ => true
  | .dcpAbsY _ => true
  | .cmpAbsX _ => true
  | .decAbsX _ => true
  | .dcpAbsX _ => true
  | .cpxImm _ => true
  | .sbcIzX _ => true
  | .iscIzX _ => true
  | .cpxZp _ => true
  | .sbcZp _ => true
  | .incZp _ => true
  | .iscZp _ => true
  | .inx => true
  | .sbcImm _ => true
  | .nop => true
  | .sbcImmEB _ => true
  | .cpxAbs _ => true
  | .sbcAbs _ => true
  | .incAbs _ => true
  | .iscAbs _ => true
  | .beq _ => true
  | .sbcIzY _ => true
  | .iscIzY _ => true
  | .sbcZpX _ => true
  | .incZpX _ => true
  | .iscZpX _ => true
  | .sed => true
  | .sbcAbsY _ => true
  | .iscAbsY _ => true
  | .sbcAbsX _ => true
  | .incAbsX _ => true
  | .iscAbsX _ => true

/-- The opcode byte of an instruction, the first byte of its encoding. -/
def Instr.opcode (i : Instr) : Byte := (encode i).headD 0

/-- The undocumented opcodes are the 105 that R171 lists; the others are the 151 documented ones. -/
def Instr.documented : Instr → Bool
  | .brk => true
  | .oraIzX _ => true
  | .jam _ => false
  | .sloIzX _ => false
  | .nopZp _ _ => false
  | .oraZp _ => true
  | .aslZp _ => true
  | .sloZp _ => false
  | .php => true
  | .oraImm _ => true
  | .aslAcc => true
  | .ancImm _ _ => false
  | .nopAbs _ => false
  | .oraAbs _ => true
  | .aslAbs _ => true
  | .sloAbs _ => false
  | .bpl _ => true
  | .oraIzY _ => true
  | .sloIzY _ => false
  | .nopZpX _ _ => false
  | .oraZpX _ => true
  | .aslZpX _ => true
  | .sloZpX _ => false
  | .clc => true
  | .oraAbsY _ => true
  | .nopImp _ => false
  | .sloAbsY _ => false
  | .nopAbsX _ _ => false
  | .oraAbsX _ => true
  | .aslAbsX _ => true
  | .sloAbsX _ => false
  | .jsrAbs _ => true
  | .andIzX _ => true
  | .rlaIzX _ => false
  | .bitZp _ => true
  | .andZp _ => true
  | .rolZp _ => true
  | .rlaZp _ => false
  | .plp => true
  | .andImm _ => true
  | .rolAcc => true
  | .bitAbs _ => true
  | .andAbs _ => true
  | .rolAbs _ => true
  | .rlaAbs _ => false
  | .bmi _ => true
  | .andIzY _ => true
  | .rlaIzY _ => false
  | .andZpX _ => true
  | .rolZpX _ => true
  | .rlaZpX _ => false
  | .sec => true
  | .andAbsY _ => true
  | .rlaAbsY _ => false
  | .andAbsX _ => true
  | .rolAbsX _ => true
  | .rlaAbsX _ => false
  | .rti => true
  | .eorIzX _ => true
  | .sreIzX _ => false
  | .eorZp _ => true
  | .lsrZp _ => true
  | .sreZp _ => false
  | .pha => true
  | .eorImm _ => true
  | .lsrAcc => true
  | .alrImm _ => false
  | .jmpAbs _ => true
  | .eorAbs _ => true
  | .lsrAbs _ => true
  | .sreAbs _ => false
  | .bvc _ => true
  | .eorIzY _ => true
  | .sreIzY _ => false
  | .eorZpX _ => true
  | .lsrZpX _ => true
  | .sreZpX _ => false
  | .cli => true
  | .eorAbsY _ => true
  | .sreAbsY _ => false
  | .eorAbsX _ => true
  | .lsrAbsX _ => true
  | .sreAbsX _ => false
  | .rts => true
  | .adcIzX _ => true
  | .rraIzX _ => false
  | .adcZp _ => true
  | .rorZp _ => true
  | .rraZp _ => false
  | .pla => true
  | .adcImm _ => true
  | .rorAcc => true
  | .arrImm _ => false
  | .jmpInd _ => true
  | .adcAbs _ => true
  | .rorAbs _ => true
  | .rraAbs _ => false
  | .bvs _ => true
  | .adcIzY _ => true
  | .rraIzY _ => false
  | .adcZpX _ => true
  | .rorZpX _ => true
  | .rraZpX _ => false
  | .sei => true
  | .adcAbsY _ => true
  | .rraAbsY _ => false
  | .adcAbsX _ => true
  | .rorAbsX _ => true
  | .rraAbsX _ => false
  | .nopImm _ _ => false
  | .staIzX _ => true
  | .saxIzX _ => false
  | .styZp _ => true
  | .staZp _ => true
  | .stxZp _ => true
  | .saxZp _ => false
  | .dey => true
  | .txa => true
  | .aneImm _ => false
  | .styAbs _ => true
  | .staAbs _ => true
  | .stxAbs _ => true
  | .saxAbs _ => false
  | .bcc _ => true
  | .staIzY _ => true
  | .shaIzY _ => false
  | .styZpX _ => true
  | .staZpX _ => true
  | .stxZpY _ => true
  | .saxZpY _ => false
  | .tya => true
  | .staAbsY _ => true
  | .txs => true
  | .tasAbsY _ => false
  | .shyAbsX _ => false
  | .staAbsX _ => true
  | .shxAbsY _ => false
  | .shaAbsY _ => false
  | .ldyImm _ => true
  | .ldaIzX _ => true
  | .ldxImm _ => true
  | .laxIzX _ => false
  | .ldyZp _ => true
  | .ldaZp _ => true
  | .ldxZp _ => true
  | .laxZp _ => false
  | .tay => true
  | .ldaImm _ => true
  | .tax => true
  | .lxaImm _ => false
  | .ldyAbs _ => true
  | .ldaAbs _ => true
  | .ldxAbs _ => true
  | .laxAbs _ => false
  | .bcs _ => true
  | .ldaIzY _ => true
  | .laxIzY _ => false
  | .ldyZpX _ => true
  | .ldaZpX _ => true
  | .ldxZpY _ => true
  | .laxZpY _ => false
  | .clv => true
  | .ldaAbsY _ => true
  | .tsx => true
  | .lasAbsY _ => false
  | .ldyAbsX _ => true
  | .ldaAbsX _ => true
  | .ldxAbsY _ => true
  | .laxAbsY _ => false
  | .cpyImm _ => true
  | .cmpIzX _ => true
  | .dcpIzX _ => false
  | .cpyZp _ => true
  | .cmpZp _ => true
  | .decZp _ => true
  | .dcpZp _ => false
  | .iny => true
  | .cmpImm _ => true
  | .dex => true
  | .sbxImm _ => false
  | .cpyAbs _ => true
  | .cmpAbs _ => true
  | .decAbs _ => true
  | .dcpAbs _ => false
  | .bne _ => true
  | .cmpIzY _ => true
  | .dcpIzY _ => false
  | .cmpZpX _ => true
  | .decZpX _ => true
  | .dcpZpX _ => false
  | .cld => true
  | .cmpAbsY _ => true
  | .dcpAbsY _ => false
  | .cmpAbsX _ => true
  | .decAbsX _ => true
  | .dcpAbsX _ => false
  | .cpxImm _ => true
  | .sbcIzX _ => true
  | .iscIzX _ => false
  | .cpxZp _ => true
  | .sbcZp _ => true
  | .incZp _ => true
  | .iscZp _ => false
  | .inx => true
  | .sbcImm _ => true
  | .nop => true
  | .sbcImmEB _ => false
  | .cpxAbs _ => true
  | .sbcAbs _ => true
  | .incAbs _ => true
  | .iscAbs _ => false
  | .beq _ => true
  | .sbcIzY _ => true
  | .iscIzY _ => false
  | .sbcZpX _ => true
  | .incZpX _ => true
  | .iscZpX _ => false
  | .sed => true
  | .sbcAbsY _ => true
  | .iscAbsY _ => false
  | .sbcAbsX _ => true
  | .incAbsX _ => true
  | .iscAbsX _ => false

/-- The instruction the decoder reads from the bits `w`, of which the table gives `nbits`; bit 0 is the least
significant bit of the first byte, and the bits above `nbits` are 0. -/
def decodeTableWord (nbits w : Nat) : Option Instr :=
  let bits : BitVec 24 := BitVec.ofNat 24 (w % 2 ^ nbits)
  match decode [bits.extractLsb' 0 8, bits.extractLsb' 8 8, bits.extractLsb' 16 8] with
  | .ok (i, _) => some i
  | .error _ => none

end Sys2Proof
end

