-- ==== Sys2Proof/Machine/Bits.lean ====
section
/-! DEFINITION. Bit fields: `v[hi:lo]` and its assignment (spec/00_scope.md R13). -/

namespace Sys2Proof.Machine

/-- `v[i]` as a truth value. -/
def bit {w : Nat} (v : BitVec w) (i : Nat) : Bool := v.getLsbD i

/-- The `len` bits of `v` from bit `lo` up. -/
def field {w : Nat} (v : BitVec w) (lo len : Nat) : BitVec len := v.extractLsb' lo len

/-- `v` with its `len` bits from bit `lo` up replaced by `x`; its other bits stay. -/
def setField {w len : Nat} (v : BitVec w) (lo : Nat) (x : BitVec len) : BitVec w :=
  (v &&& ~~~((BitVec.allOnes len).setWidth w <<< lo)) ||| (x.setWidth w <<< lo)

/-- A truth value as a number, 0 or 1. -/
def bitNat (b : Bool) : Nat := if b then 1 else 0

end Sys2Proof.Machine
end

