-- ==== Sys2Proof/Config.lean ====
section
/-! DEFINITION. The open parameters of spec/00_scope.md R10 that no rule gives a value for every machine, and the
names of the input source's ports and buttons. Each parameter is a constant WITHOUT A BODY: a theorem about the
model holds for every value of it. The power-on contents of the memories are no constants: `State.powerOn`
takes them as arguments (Machine/Reset.lean). -/

namespace Sys2Proof

/-- The two controller ports (52_controller.md R600). -/
inductive Port where
  | one
  | two
deriving DecidableEq, Repr

/-- The nine identifiers of the input source (R601). `onOff` is a sentinel the controller never queries. -/
inductive Button where
  | onOff
  | a
  | b
  | select
  | start
  | up
  | down
  | left
  | right
deriving DecidableEq, Repr

/-- `ANE_MAGIC` (47_unofficial.md R407, D11). Free value, log entry 4. -/
opaque Config.aneMagic : Byte

/-- `LXA_MAGIC` (47_unofficial.md R408, D11). Free value, log entry 4. -/
opaque Config.lxaMagic : Byte

/-- `CTRL_OPEN_BUS`: bits 7-1 of a controller read (52_controller.md R604, D29). Free value, log entry 5. -/
opaque Config.ctrlOpenBus : Byte

/-- `ODD_FRAME_SKIP` (50_ppu.md R503, D19). Free value, log entry 6. -/
opaque Config.oddFrameSkip : Bool

/-- The answer of the input source to its `n`-th `is_pressed(port, button)` call (52_controller.md R603, D28): a
draw, unrelated from call to call. Free value, log entry 7. -/
opaque Config.isPressed : Nat → Port → Button → Bool

/-- `SYSTEM_PALETTE`, the display sink's colour conversion to packed RGBA (50_ppu.md R531, D35). Free value, log
entry 8. -/
opaque Config.systemPalette : BitVec 9 → BitVec 32

end Sys2Proof
end

