-- ==== Sys2Proof/Machine/Memory.lean ====
section
/-! DEFINITION. One memory of the machine: the RAM, ROM, nametable, palette, OAM, PRG RAM, CHR and frame-buffer
arrays of spec/10_state.md R51, R53, R57 and R58 all have this form. A memory is a list of (index, value) pairs
(`Host.Cell` when the values are bytes) in one canonical form: indices strictly rising, and no entry equal to what
an unlisted index reads as, so that equal memories are equal lists. -/

namespace Sys2Proof.Machine

/-- A memory of `w`-bit cells; `Memory 8` is a list of `Host.Cell`. -/
abbrev Memory (w : Nat) := List (Nat × BitVec w)

/-- What an unlisted index reads as: 0 (DESIGN CHOICE, unsafe, log entry 2). It shows in `State.reset` alone:
`State.powerOn` takes every power-on content as an argument. -/
def Memory.unlisted (w : Nat) : BitVec w := 0#w

/-- The cell at an index. -/
def Memory.read {w : Nat} : Memory w → Nat → BitVec w
  | [], _ => Memory.unlisted w
  | (j, v) :: rest, k => if j = k then v else Memory.read rest k

/-- Put a cell in front of a memory whose indices are larger, leaving out the unlisted value. -/
def Memory.cons {w : Nat} (k : Nat) (v : BitVec w) (m : Memory w) : Memory w :=
  if v = Memory.unlisted w then m else (k, v) :: m

/-- Set the cell at an index, keeping the canonical form. -/
def Memory.write {w : Nat} : Memory w → Nat → BitVec w → Memory w
  | [], k, v => Memory.cons k v []
  | (j, u) :: rest, k, v =>
    if k < j then Memory.cons k v ((j, u) :: rest)
    else if k = j then Memory.cons k v rest
    else (j, u) :: Memory.write rest k v

/-- The indices after `k` rise strictly, and no cell holds the unlisted value. -/
def Memory.wfAfter {w : Nat} : Option Nat → Memory w → Bool
  | _, [] => true
  | lo, (j, v) :: rest =>
    (match lo with
      | none => true
      | some k => decide (k < j))
      && decide (v ≠ Memory.unlisted w) && Memory.wfAfter (some j) rest

/-- The canonical form. -/
def Memory.wf {w : Nat} (m : Memory w) : Bool := Memory.wfAfter none m

/-- Every listed index is below `n`, the size of the array the memory stands for. -/
def Memory.below {w : Nat} (m : Memory w) (n : Nat) : Bool := m.all fun cell => decide (cell.1 < n)

/-- The memory that holds a sequence of values at `k`, `k + 1`, … and the unlisted value elsewhere. -/
def Memory.ofList {w : Nat} : Nat → List (BitVec w) → Memory w
  | _, [] => []
  | k, v :: rest => Memory.cons k v (Memory.ofList (k + 1) rest)

/-- Write a sequence of values at `k`, `k + 1`, …. -/
def Memory.writeList {w : Nat} : Memory w → Nat → List (BitVec w) → Memory w
  | m, _, [] => m
  | m, k, v :: rest => Memory.writeList (m.write k v) (k + 1) rest

end Sys2Proof.Machine
end

