-- ==== Sys2Proof/Machine/State.lean ====
section
/-! DEFINITION. The machine's state (spec/10_state.md): every field the spec gives each block, and the few the model
adds (marked MODEL). State is plain data. `State.reset` is the machine right after power-on (70_reset_and_hazards.md
R700, R702). -/

namespace Sys2Proof.Machine

/-- The stored flags of P (10_state.md R36). Bits 5 and 4 of the byte form are not stored. -/
structure Status where
  n : Bool
  v : Bool
  d : Bool
  i : Bool
  z : Bool
  c : Bool
deriving DecidableEq, Repr

/-- The CPU (R31 to R50). `sp` is the spec's S. -/
structure Cpu where
  a : Byte
  x : Byte
  y : Byte
  sp : Byte
  pc : Word
  p : Status
  /-- Set by a JAM opcode, cleared by reset only (R47). -/
  halted : Bool
  /-- CPU cycles consumed since power-on (R48). -/
  cycles : Nat
  /-- The IRQ input, level-sensitive (R49). No block drives it, and only machine reset changes it, to false
  (70_reset_and_hazards.md R702, log entry 14). -/
  irqLine : Bool
deriving DecidableEq, Repr

/-- The background pipeline (R55); `attr` is the spec's `bg.at`. -/
structure Background where
  nt : Byte
  attr : BitVec 2
  lo : Byte
  hi : Byte
  sLo : BitVec 16
  sHi : BitVec 16
  aLo : BitVec 16
  aHi : BitVec 16
deriving DecidableEq, Repr

/-- One sprite slot of the line being drawn (R56). -/
structure Slot where
  x : Byte
  attr : Byte
  lo : Byte
  hi : Byte
deriving DecidableEq, Repr

/-- The sprite line state (R56): `count` of the eight `slots` are in use. -/
structure SpriteLine where
  count : Nat
  slots : List Slot
  hasZero : Bool
deriving DecidableEq, Repr

/-- The PPU (R52 to R57). -/
structure Ppu where
  ctrl : Byte
  mask : Byte
  vblank : Bool
  sprite0Hit : Bool
  spriteOverflow : Bool
  oamAddr : Byte
  v : BitVec 15
  t : BitVec 15
  x : BitVec 3
  w : Bool
  readBuffer : Byte
  ioLatch : Byte
  nmiRequest : Bool
  /-- 256 bytes, 64 sprites of 4 (R53). -/
  oam : Memory 8
  /-- 32 cells of 6 bits (R53). -/
  palette : Memory 6
  /-- The two nametables, 2048 bytes (R53). -/
  ciram : Memory 8
  /-- 0..261 (R54). -/
  scanline : Nat
  /-- 0..340 (R54). -/
  dot : Nat
  /-- Frames completed (R54). -/
  frame : Nat
  bg : Background
  spr : SpriteLine
  /-- 240 x 256 cells of 9 bits, row by row (R57). -/
  frameBuffer : Memory 9
deriving DecidableEq, Repr

/-- The mappers of 51_cartridge.md R578: ids 0, 2 and 3. -/
inductive Mapper where
  | nrom
  | uxrom
  | cnrom
deriving DecidableEq, Repr

/-- The declared nametable arrangement (R58). -/
inductive Mirroring where
  | horizontal
  | vertical
  | fourScreen
deriving DecidableEq, Repr

/-- The cartridge (R58, R59). A ROM is its bytes and its bank count: `prgRom` has 16384 x `prgBanks` bytes and `chr`
8192 x `chrBanks`. -/
structure Cart where
  mapper : Mapper
  mirroring : Mirroring
  prgRom : Memory 8
  prgBanks : Nat
  chr : Memory 8
  chrBanks : Nat
  chrIsRam : Bool
  /-- 8192 bytes. -/
  prgRam : Memory 8
  /-- 2048 bytes, used under four-screen mirroring only. -/
  fsVram : Memory 8
  prgBank : Byte
  chrBank : Byte
deriving DecidableEq, Repr

/-- One controller port (R60): `cursor` is 0..8. -/
structure Controller where
  cursor : Nat
  strobe : Bool
deriving DecidableEq, Repr

/-- The Synchronizer (R61, R62). -/
structure Sync where
  /-- PPU dots owed and not yet stepped (R61). -/
  debt : Nat
  /-- The NMI edge the PPU reported (R62). -/
  nmiPending : Bool
  /-- MODEL: whether `run_frame` is between its opening drain and its `present` (log entry 10). -/
  inFrame : Bool
  /-- MODEL: the C of 53_synchronizer.md R638, the cycles reported to the Synchronizer (log entry 13). -/
  reported : Nat
  /-- MODEL: the `ppu_steps` of R638 (log entry 13). -/
  dots : Nat
deriving DecidableEq, Repr

/-- MODEL: the host's side of the interfaces of 00_scope.md R11 (log entries 7, 11 and 12). -/
structure HostPort where
  /-- How many `is_pressed` calls were made: the index of the next draw. -/
  draws : Nat
  /-- The reset button, looked at between frames. -/
  resetRequested : Bool
  /-- How many frames were handed to `present`. -/
  presented : Nat
  /-- The frame `present` was handed last. -/
  lastFrame : Memory 9
deriving DecidableEq, Repr

/-- The machine context that owns every block (00_scope.md R11). -/
structure State where
  cpu : Cpu
  ram : Memory 8
  ppu : Ppu
  cart : Cart
  ctl1 : Controller
  ctl2 : Controller
  sync : Sync
  host : HostPort
deriving DecidableEq, Repr

/-- The reasons a step can stop with a fault: NONE. No instruction and no access raises a trap (60_exceptions.md
R670), every bus access completes (20_memory.md R107) and every opcode is defined (30_encoding.md R170), so the
type has no constructor and no meaning can fault. -/
inductive Fault
deriving DecidableEq, Repr

/-- The reasons an instruction is refused. -/
inductive Refusal where
  /-- Raised by `exec` for an instruction that has no meaning yet; safe. No arm raises it. -/
  | notModelled (mnemonic : String)
deriving DecidableEq, Repr

/-- The CPU registers before the reset vector is read (R50, R47, R48, R49): PC is still 0. -/
def Cpu.powerOn : Cpu :=
  { a := 0x00, x := 0x00, y := 0x00, sp := 0xFD, pc := 0x0000
    p := { n := false, v := false, d := false, i := true, z := false, c := false }
    halted := false, cycles := 0, irqLine := false }

/-- The power-on column of R52 to R57, the three memories apart (R53), which are arguments. -/
def Ppu.powerOn (oam : Memory 8) (palette : Memory 6) (ciram : Memory 8) : Ppu :=
  { ctrl := 0x00, mask := 0x00, vblank := false, sprite0Hit := false, spriteOverflow := false
    oamAddr := 0x00, v := 0, t := 0, x := 0, w := false, readBuffer := 0x00, ioLatch := 0x00
    nmiRequest := false, oam := oam, palette := palette, ciram := ciram
    scanline := 0, dot := 0, frame := 0
    bg := { nt := 0, attr := 0, lo := 0, hi := 0, sLo := 0, sHi := 0, aLo := 0, aHi := 0 }
    spr := { count := 0, slots := List.replicate 8 { x := 0, attr := 0, lo := 0, hi := 0 }, hasZero := false }
    frameBuffer := [] }

/-- The cartridge of the smallest image `load` accepts, with every byte after the header's bank count 0: mapper 0, one
PRG bank, CHR RAM, horizontal mirroring (DESIGN CHOICE, unsafe, log entry 1). -/
def Cart.blank : Cart :=
  { mapper := .nrom, mirroring := .horizontal, prgRom := [], prgBanks := 1, chr := [], chrBanks := 1
    chrIsRam := true, prgRam := [], fsVram := [], prgBank := 0x00, chrBank := 0x00 }

/-- The machine right after power-on (R700, R702), with the blank cartridge and every power-on memory 0 (log entries
1 and 2). The reset vector of the blank cartridge is 0x0000, and the reset sequence counted 7 cycles (R662). -/
def State.reset : State :=
  { cpu := { Cpu.powerOn with pc := 0x0000, cycles := 7 }
    ram := []
    ppu := Ppu.powerOn [] [] []
    cart := Cart.blank
    ctl1 := { cursor := 0, strobe := false }
    ctl2 := { cursor := 0, strobe := false }
    sync := { debt := 0, nmiPending := false, inFrame := false, reported := 0, dots := 0 }
    host := { draws := 0, resetRequested := false, presented := 0, lastFrame := [] } }

end Sys2Proof.Machine
end

