-- ==== Sys2Proof/Machine/Flags.lean ====
section
/-! DEFINITION. The processor status (spec/10_state.md R36, R37) and every flag computation of the instruction rules:
the adder (43_arith_logic.md R250), the compare (R256), `setNZ` (00_scope.md R15), and the shifts and rotates of
44_shift_rotate.md, each as a function of the flags and the operand. -/

namespace Sys2Proof.Machine

/-- `Pbyte(b) = {N, V, 1, b, D, I, Z, C}` (R37). -/
def Status.toByte (b : Bool) (p : Status) : Byte :=
  BitVec.ofBool p.n ++ BitVec.ofBool p.v ++ 1#1 ++ BitVec.ofBool b ++ BitVec.ofBool p.d ++ BitVec.ofBool p.i ++
    BitVec.ofBool p.z ++ BitVec.ofBool p.c

/-- Load P from a byte: bits 5 and 4 are ignored (R37). -/
def Status.ofByte (v : Byte) : Status :=
  { n := bit v 7, v := bit v 6, d := bit v 3, i := bit v 2, z := bit v 1, c := bit v 0 }

/-- `setNZ(v)`: Z when `v` is 0, N from bit 7 (00_scope.md R15). -/
def Status.setNZ (p : Status) (v : Byte) : Status := { p with z := v == 0, n := bit v 7 }

/-- The result, carry and overflow of the adder. -/
structure Sum where
  r : Byte
  c : Bool
  v : Bool
deriving DecidableEq, Repr

/-- `ADD8(a, m, cin)`: the 9-bit sum, its low byte, bit 8 as carry, and two's-complement overflow. P.D is no input
(R250, D1). -/
def add8 (a m : Byte) (cin : Bool) : Sum :=
  let sum : BitVec 9 := a.setWidth 9 + m.setWidth 9 + (BitVec.ofBool cin).setWidth 9
  let r : Byte := sum.setWidth 8
  { r := r, c := bit sum 8, v := bit ((a ^^^ r) &&& (m ^^^ r)) 7 }

/-- N, V, Z and C of an addition's result (R251, R252). -/
def Status.ofSum (p : Status) (s : Sum) : Status := { p.setNZ s.r with c := s.c, v := s.v }

/-- `COMPARE(r, m)`: C when `r >= m` unsigned, Z when equal, N from the difference; V stays (R256). -/
def Status.compare (p : Status) (r m : Byte) : Status :=
  { p with c := decide (m.toNat ≤ r.toNat), z := r == m, n := bit (r - m) 7 }

/-- BIT: Z from `a & m`, N and V from `m` (R260). -/
def Status.bitTest (p : Status) (a m : Byte) : Status :=
  { p with z := (a &&& m) == 0, n := bit m 7, v := bit m 6 }

/-- The result of a one-bit shift or rotate and the bit shifted out. -/
structure Shifted where
  r : Byte
  c : Bool
deriving DecidableEq, Repr

/-- ASL: bit 7 goes to C, 0 comes in (R301). -/
def shiftLeft (v : Byte) : Shifted := { r := v <<< 1, c := bit v 7 }

/-- LSR: bit 0 goes to C, 0 comes in (R302). -/
def shiftRight (v : Byte) : Shifted := { r := v >>> 1, c := bit v 0 }

/-- ROL: bit 7 goes to C, the old C comes in at bit 0 (R303). -/
def rotateLeft (v : Byte) (c0 : Bool) : Shifted :=
  { r := (v <<< 1) ||| (BitVec.ofBool c0).setWidth 8, c := bit v 7 }

/-- ROR: bit 0 goes to C, the old C comes in at bit 7 (R304). -/
def rotateRight (v : Byte) (c0 : Bool) : Shifted :=
  { r := (v >>> 1) ||| ((BitVec.ofBool c0).setWidth 8 <<< 7), c := bit v 0 }

/-- N and Z of the shifted byte, C from the bit shifted out (R301 to R304). -/
def Status.ofShifted (p : Status) (s : Shifted) : Status := { p.setNZ s.r with c := s.c }

/-- `A <- v; setNZ(A)`. -/
def Cpu.loadA (c : Cpu) (v : Byte) : Cpu := { c with a := v, p := c.p.setNZ v }

/-- `X <- v; setNZ(X)`. -/
def Cpu.loadX (c : Cpu) (v : Byte) : Cpu := { c with x := v, p := c.p.setNZ v }

/-- `Y <- v; setNZ(Y)`. -/
def Cpu.loadY (c : Cpu) (v : Byte) : Cpu := { c with y := v, p := c.p.setNZ v }

/-- `(r, c, v) <- ADD8(A, m, cin); A <- r; P.C <- c; P.V <- v; setNZ(A)` (R251). -/
def Cpu.addA (c : Cpu) (m : Byte) (cin : Bool) : Cpu :=
  let s := add8 c.a m cin
  { c with a := s.r, p := c.p.ofSum s }

/-- `P.C <- b`. -/
def Cpu.setC (c : Cpu) (b : Bool) : Cpu := { c with p := { c.p with c := b } }

end Sys2Proof.Machine
end

