-- ==== Sys2Proof/Machine/Pad.lean ====
section
/-! DEFINITION. The controller shift register (spec/52_controller.md R600 to R609). -/

namespace Sys2Proof.Machine

/-- `ORDER`: the serial order of the eight buttons (R601, C1). -/
def serialOrder : List Button := [.a, .b, .select, .start, .up, .down, .left, .right]

/-- `strobe_write(v)` on one port (R602): bits 7-1 are ignored. -/
def Controller.strobeWrite (ctl : Controller) (v : Byte) : Controller :=
  { strobe := bit v 0, cursor := if bit v 0 || ctl.strobe then 0 else ctl.cursor }

/-- The byte a data read returns for a button bit (R604). -/
def padByte (pressed : Bool) : Byte := (Config.ctrlOpenBus &&& 0xFE) ||| (BitVec.ofBool pressed).setWidth 8

/-- The answer to one data read: the byte, the controller, and whether `is_pressed` was called. -/
structure PadRead where
  value : Byte
  ctl : Controller
  drew : Bool
deriving DecidableEq, Repr

/-- `data_read(p)`, `draw` being the index of the next draw of the input source (R603, R604, R608). -/
def Controller.dataRead (ctl : Controller) (port : Port) (draw : Nat) : PadRead :=
  if ctl.strobe then { value := padByte (Config.isPressed draw port .a), ctl := ctl, drew := true }
  else if ctl.cursor < 8 then
    { value := padByte (Config.isPressed draw port (serialOrder.getD ctl.cursor .right))
      ctl := { ctl with cursor := ctl.cursor + 1 }
      drew := true }
  else { value := padByte true, ctl := ctl, drew := false }

/-- The draw counter after a data read. -/
def HostPort.afterRead (h : HostPort) (r : PadRead) : HostPort :=
  { h with draws := if r.drew then h.draws + 1 else h.draws }

end Sys2Proof.Machine
end

