-- ==== Sys2Proof/Machine/Cartridge.lean ====
section
/-! DEFINITION. The cartridge (spec/51_cartridge.md): the ROM image loader, the CPU and PPU windows and the mapper
registers. -/

namespace Sys2Proof.Machine

/-- Why `load` refuses an image (R555). -/
inductive LoadError where
  | truncated
  | badMagic
  | malformedHeader
  | unsupportedMapper (id : Byte)
deriving DecidableEq, Repr

/-- The power-on contents the spec takes as open parameters (00_scope.md R10, D13). -/
structure PowerOnContents where
  ram : Memory 8
  vram : Memory 8
  fsVram : Memory 8
  palette : Memory 6
  oam : Memory 8
  prgRam : Memory 8
  chrRam : Memory 8
deriving DecidableEq, Repr

/-- The contents in canonical form and within the arrays' sizes. -/
def PowerOnContents.wf (c : PowerOnContents) : Bool :=
  c.ram.wf && c.ram.below 2048 && (c.vram.wf && c.vram.below 2048) && (c.fsVram.wf && c.fsVram.below 2048) &&
    (c.palette.wf && c.palette.below 32) && (c.oam.wf && c.oam.below 256) &&
    (c.prgRam.wf && c.prgRam.below 8192) && (c.chrRam.wf && c.chrRam.below 8192)

/-- The magic bytes of the header (R551). -/
def imageMagic : List Byte := [0x4E, 0x45, 0x53, 0x1A]

/-- `mapper_id = {img[7][7:4], img[6][7:4]}` (R551). -/
def mapperId (f6 f7 : Byte) : Byte := field f7 4 4 ++ field f6 4 4

/-- The mappers of R578 by id. -/
def mapperOf (id : Byte) : Option Mapper :=
  if id = 0 then some .nrom else if id = 2 then some .uxrom else if id = 3 then some .cnrom else none

/-- Flags 6 bit 3 declares four-screen, else bit 0 vertical or horizontal (R553). -/
def mirroringOf (f6 : Byte) : Mirroring :=
  if bit f6 3 then .fourScreen else if bit f6 0 then .vertical else .horizontal

/-- The cartridge an accepted image gives, `off` being where the PRG data starts (R552, R554). -/
def Cart.ofImage (init : PowerOnContents) (img : List Byte) (mapper : Mapper) (off : Nat) : Cart :=
  let np := (img.getD 4 0).toNat
  let nc := (img.getD 5 0).toNat
  let f6 := img.getD 6 0
  { mapper := mapper
    mirroring := mirroringOf f6
    prgRom := Memory.ofList 0 ((img.drop off).take (16384 * np))
    prgBanks := np
    chr := if nc = 0 then init.chrRam else Memory.ofList 0 ((img.drop (off + 16384 * np)).take (8192 * nc))
    chrBanks := if nc = 0 then 1 else nc
    chrIsRam := nc == 0
    prgRam := if bit f6 2 then init.prgRam.writeList 0x1000 ((img.drop 16).take 512) else init.prgRam
    fsVram := init.fsVram
    prgBank := 0x00
    chrBank := 0x00 }

/-- `load(img)`: the checks in the order of R552; the first that fails is the result. -/
def load (init : PowerOnContents) (img : List Byte) : Except LoadError Cart :=
  if img.length < 16 then .error .truncated
  else if img.take 4 ≠ imageMagic then .error .badMagic
  else if img.getD 4 0 = 0 then .error .malformedHeader
  else
    match mapperOf (mapperId (img.getD 6 0) (img.getD 7 0)) with
    | none => .error (.unsupportedMapper (mapperId (img.getD 6 0) (img.getD 7 0)))
    | some mapper =>
      let off := 16 + (if bit (img.getD 6 0) 2 then 512 else 0)
      if img.length < off + 16384 * (img.getD 4 0).toNat + 8192 * (img.getD 5 0).toNat then .error .truncated
      else .ok (Cart.ofImage init img mapper off)

/-- Where in PRG ROM an address 0x8000-0xFFFF lies (R567). Bank numbers wrap modulo the bank count (D25). -/
def Cart.prgIndex (c : Cart) (a : Word) : Nat :=
  match c.mapper with
  | .nrom => (a.toNat - 0x8000) % (16384 * c.prgBanks)
  | .cnrom => (a.toNat - 0x8000) % (16384 * c.prgBanks)
  | .uxrom =>
    if a < 0xC000 then 16384 * (c.prgBank.toNat % c.prgBanks) + a.toNat % 16384
    else 16384 * (c.prgBanks - 1) + a.toNat % 16384

/-- `cart.cpu_read(a)`, for 0x4020-0xFFFF (R565, R566). It changes nothing. -/
def Cart.cpuRead (c : Cart) (a : Word) : Byte :=
  if a < 0x6000 then 0x00
  else if a < 0x8000 then c.prgRam.read (a.toNat - 0x6000)
  else c.prgRom.read (c.prgIndex a)

/-- `cart.cpu_write(a, v)` (R568): PRG RAM, and the mapper registers of R569 to R571. PRG ROM never changes. -/
def Cart.cpuWrite (c : Cart) (a : Word) (v : Byte) : Cart :=
  if a < 0x6000 then c
  else if a < 0x8000 then { c with prgRam := c.prgRam.write (a.toNat - 0x6000) v }
  else
    match c.mapper with
    | .nrom => c
    | .uxrom => { c with prgBank := v }
    | .cnrom => { c with chrBank := v }

/-- Where in CHR the mapper 3 bank puts an address 0x0000-0x1FFF (R575, R577). -/
def Cart.chrBanked (c : Cart) (a : Nat) : Nat := 8192 * (c.chrBank.toNat % c.chrBanks) + a

/-- `cart.ppu_read(a)`, for 0x0000-0x1FFF (R575). -/
def Cart.ppuRead (c : Cart) (a : Nat) : Byte :=
  match c.mapper with
  | .nrom => c.chr.read a
  | .uxrom => c.chr.read a
  | .cnrom => c.chr.read (c.chrBanked a)

/-- `cart.ppu_write(a, v)`: stored in CHR RAM, ignored by CHR ROM (R577). -/
def Cart.ppuWrite (c : Cart) (a : Nat) (v : Byte) : Cart :=
  if c.chrIsRam then { c with chr := c.chr.write (c.chrBanked a) v } else c

end Sys2Proof.Machine
end

