-- ==== Sys2Proof/Machine/PpuBus.lean ====
section
/-! DEFINITION. The PPU address space (spec/20_memory.md R120 to R124): pattern tables in the cartridge, nametables
under the declared mirroring, the palette with its four aliases. An address is 14 bits wide, so R120's reduction
`a & 0x3FFF` is the type's. -/

namespace Sys2Proof.Machine

/-- A nametable cell: one of the PPU's own 2048 bytes or of the cartridge's four-screen memory (R123). -/
inductive NtCell where
  | ciram (k : Nat)
  | fsVram (k : Nat)
deriving DecidableEq, Repr

/-- `nt_cell(n, i)`: logical nametable `n`, index `i` (R123, D49, D50). -/
def ntCell (m : Mirroring) (n : BitVec 2) (i : BitVec 10) : NtCell :=
  let k := i.toNat
  match m with
  | .horizontal => if bit n 1 then .ciram (0x400 + k) else .ciram k
  | .vertical => if bit n 0 then .ciram (0x400 + k) else .ciram k
  | .fourScreen =>
    if n = 0 then .ciram k
    else if n = 1 then .ciram (0x400 + k)
    else if n = 2 then .fsVram k
    else .fsVram (0x400 + k)

/-- What a PPU address reaches. -/
inductive PpuRegion where
  | pattern (k : Nat)
  | nametable (cell : NtCell)
  | palette (k : Nat)
deriving DecidableEq, Repr

/-- The palette cell of an address: folded every 32 bytes, 0x10, 0x14, 0x18, 0x1C onto 0x00, 0x04, 0x08, 0x0C
(R124). -/
def paletteIndex (a : BitVec 14) : Nat :=
  let p := a.toNat % 32
  if p = 0x10 ∨ p = 0x14 ∨ p = 0x18 ∨ p = 0x1C then p - 0x10 else p

/-- The dispatch of R120. `o = (a - 0x2000) & 0x0FFF` is the low 12 bits of the address. -/
def ppuRegion (m : Mirroring) (a : BitVec 14) : PpuRegion :=
  if a < 0x2000 then .pattern a.toNat
  else if a < 0x3F00 then .nametable (ntCell m (field a 10 2) (field a 0 10))
  else .palette (paletteIndex a)

/-- `PpuRead(a)` (R120 to R124). It changes nothing. -/
def Ppu.busRead (p : Ppu) (c : Cart) (a : BitVec 14) : Byte :=
  match ppuRegion c.mirroring a with
  | .pattern k => c.ppuRead k
  | .nametable (.ciram k) => p.ciram.read k
  | .nametable (.fsVram k) => c.fsVram.read k
  | .palette k => (p.palette.read k).setWidth 8

/-- `PpuWrite(a, v)` (R120 to R124): the palette keeps `v & 0x3F`. -/
def Ppu.busWrite (p : Ppu) (c : Cart) (a : BitVec 14) (v : Byte) : Ppu × Cart :=
  match ppuRegion c.mirroring a with
  | .pattern k => (p, c.ppuWrite k v)
  | .nametable (.ciram k) => ({ p with ciram := p.ciram.write k v }, c)
  | .nametable (.fsVram k) => (p, { c with fsVram := c.fsVram.write k v })
  | .palette k => ({ p with palette := p.palette.write k (v.setWidth 6) }, c)

end Sys2Proof.Machine
end

