-- ==== Sys2Proof/Machine/PpuRegs.lean ====
section
/-! DEFINITION. The PPU's registers as the CPU bus sees them (spec/50_ppu.md R451, R460 to R475). Register index `r`
is the low three bits of the CPU address (20_memory.md R103). -/

namespace Sys2Proof.Machine

/-- `inc`: 1 across or 32 down (R451, R471). -/
def Ppu.inc (p : Ppu) : BitVec 15 := if bit p.ctrl 2 then 32 else 1

/-- Keep the byte written in the data-bus latch (R473). -/
def Ppu.latch (p : Ppu) (v : Byte) : Ppu := { p with ioLatch := v }

/-- Move `v` on by the PPUDATA increment, modulo 0x8000 (R471). -/
def Ppu.advanceV (p : Ppu) : Ppu := { p with v := p.v + p.inc }

/-- PPUSTATUS's byte: bits 7, 6, 5, then the latch's low five bits (R463). -/
def Ppu.statusByte (p : Ppu) : Byte :=
  BitVec.ofBool p.vblank ++ BitVec.ofBool p.sprite0Hit ++ BitVec.ofBool p.spriteOverflow ++ field p.ioLatch 0 5

/-- PPUSTATUS read (R463). -/
def Ppu.readStatus (p : Ppu) : Byte × Ppu := (p.statusByte, { p with vblank := false, w := false })

/-- OAMDATA read (R466). -/
def Ppu.readOamData (p : Ppu) : Byte × Ppu := (p.oam.read p.oamAddr.toNat, p)

/-- PPUDATA read (R469): buffered below 0x3F00, direct in the palette range. -/
def Ppu.readData (p : Ppu) (c : Cart) : Byte × Ppu :=
  let a : BitVec 14 := p.v.setWidth 14
  if a < 0x3F00 then (p.readBuffer, { p with readBuffer := p.busRead c a }.advanceV)
  else
    (field p.ioLatch 6 2 ++ field (p.busRead c a) 0 6,
      { p with readBuffer := p.busRead c (a - 0x1000) }.advanceV)

/-- `reg_read(r)` (R463, R466, R469, R472): the write-only registers read the latch. -/
def Ppu.regRead (p : Ppu) (c : Cart) (r : BitVec 3) : Byte × Ppu :=
  if r = 2 then p.readStatus
  else if r = 4 then p.readOamData
  else if r = 7 then p.readData c
  else (p.ioLatch, p)

/-- PPUCTRL write (R460): a 0 to 1 change of bit 7 during VBlank requests an NMI. -/
def Ppu.writeCtrl (p : Ppu) (v : Byte) : Ppu :=
  { p with
    ctrl := v
    t := setField p.t 10 (field v 0 2)
    nmiRequest := p.nmiRequest || (!bit p.ctrl 7 && bit v 7 && p.vblank) }

/-- PPUMASK write (R462). -/
def Ppu.writeMask (p : Ppu) (v : Byte) : Ppu := { p with mask := v }

/-- OAMADDR write (R464). -/
def Ppu.writeOamAddr (p : Ppu) (v : Byte) : Ppu := { p with oamAddr := v }

/-- `oam_store(i, b)`: the three unimplemented bits of an attribute byte are stored as 0 (R465, D47). -/
def Ppu.oamStore (p : Ppu) (i b : Byte) : Ppu :=
  { p with oam := p.oam.write i.toNat (if i &&& 3 = 2 then b &&& 0xE3 else b) }

/-- OAMDATA write (R465). -/
def Ppu.writeOamData (p : Ppu) (v : Byte) : Ppu :=
  { p.oamStore p.oamAddr v with oamAddr := p.oamAddr + 1 }

/-- PPUSCROLL write (R467). -/
def Ppu.writeScroll (p : Ppu) (v : Byte) : Ppu :=
  if p.w then { p with t := setField (setField p.t 12 (field v 0 3)) 5 (field v 3 5), w := false }
  else { p with t := setField p.t 0 (field v 3 5), x := field v 0 3, w := true }

/-- PPUADDR write (R468). -/
def Ppu.writeAddr (p : Ppu) (v : Byte) : Ppu :=
  if p.w then
    let t := setField p.t 0 v
    { p with t := t, v := t, w := false }
  else { p with t := setField (setField p.t 8 (field v 0 6)) 14 0#1, w := true }

/-- PPUDATA write (R470): it reaches the nametables, the palette, or the cartridge's CHR or four-screen memory. -/
def Ppu.writeData (p : Ppu) (c : Cart) (v : Byte) : Ppu × Cart :=
  let r := p.busWrite c (p.v.setWidth 14) v
  (r.1.advanceV, r.2)

/-- `reg_write(r, v)` (R460 to R474). Every write sets the latch (R473); PPUSTATUS (r = 2) has no other effect
(R474). -/
def Ppu.regWrite (p : Ppu) (c : Cart) (r : BitVec 3) (v : Byte) : Ppu × Cart :=
  if r = 0 then ((p.writeCtrl v).latch v, c)
  else if r = 1 then ((p.writeMask v).latch v, c)
  else if r = 2 then (p.latch v, c)
  else if r = 3 then ((p.writeOamAddr v).latch v, c)
  else if r = 4 then ((p.writeOamData v).latch v, c)
  else if r = 5 then ((p.writeScroll v).latch v, c)
  else if r = 6 then ((p.writeAddr v).latch v, c)
  else
    let w := p.writeData c v
    (w.1.latch v, w.2)

end Sys2Proof.Machine
end

