-- ==== Sys2Proof/Machine/Ops.lean ====
section
/-! DEFINITION. The named operations over the machine: the CPU bus (spec/20_memory.md R100 to R117), OAM DMA (R140,
R141), the stack (10_state.md R45, R46), taking an interrupt and returning from one (60_exceptions.md R663, R665,
R671, R672), and the accessors every meaning uses. Every bus access threads the state, because a read may change a
device (R114). -/

namespace Sys2Proof.Machine

/-- Replace the CPU. -/
def State.setCpu (s : State) (c : Cpu) : State := { s with cpu := c }

/-- Change the CPU registers. -/
def State.mapCpu (s : State) (f : Cpu → Cpu) : State := { s with cpu := f s.cpu }

/-- `PC <- target` (00_scope.md R14). -/
def State.setPc (s : State) (pc : Word) : State := { s with cpu := { s.cpu with pc := pc } }

/-- Replace the status flags. -/
def State.setP (s : State) (p : Status) : State := { s with cpu := { s.cpu with p := p } }

/-- Replace the stack pointer S. -/
def State.setSp (s : State) (sp : Byte) : State := { s with cpu := { s.cpu with sp := sp } }

/-- Add the cycles an action reports to `cpu.cycles` (10_state.md R48). -/
def State.charge (s : State) (n : Nat) : State := { s with cpu := { s.cpu with cycles := s.cpu.cycles + n } }

/-- Replace the PPU. -/
def State.setPpu (s : State) (p : Ppu) : State := { s with ppu := p }

/-- What a CPU address reaches (20_memory.md R101). -/
inductive Region where
  /-- Internal RAM, folded every 0x800 (R102). -/
  | ram (k : Nat)
  /-- A PPU register, folded every 8 (R103). -/
  | ppuReg (r : BitVec 3)
  /-- 0x4014, the OAM DMA port (R140). -/
  | oamDma
  /-- 0x4016: strobe of both pads, data of pad 1 (R105). -/
  | pad1
  /-- 0x4017: data of pad 2; a write is an APU write, ignored (R105, R607). -/
  | pad2
  /-- The rest of 0x4000-0x401F: the unimplemented APU (R104, D16). -/
  | apu
  /-- 0x4020-0xFFFF, delegated to the cartridge (R106). -/
  | cart
deriving DecidableEq, Repr

/-- The decode of R101, first matching row. -/
def region (a : Word) : Region :=
  if a < 0x2000 then .ram (a.toNat % 0x800)
  else if a < 0x4000 then .ppuReg (a.setWidth 3)
  else if a = 0x4014 then .oamDma
  else if a = 0x4016 then .pad1
  else if a = 0x4017 then .pad2
  else if a < 0x4020 then .apu
  else .cart

/-- `cpu_read(a)`: one bus access (R101). -/
def cpuRead (a : Word) (s : State) : Byte × State :=
  match region a with
  | .ram k => (s.ram.read k, s)
  | .ppuReg r =>
    let q := s.ppu.regRead s.cart r
    (q.1, { s with ppu := q.2 })
  | .oamDma => (0x00, s)
  | .pad1 =>
    let r := s.ctl1.dataRead .one s.host.draws
    (r.value, { s with ctl1 := r.ctl, host := s.host.afterRead r })
  | .pad2 =>
    let r := s.ctl2.dataRead .two s.host.draws
    (r.value, { s with ctl2 := r.ctl, host := s.host.afterRead r })
  | .apu => (0x00, s)
  | .cart => (s.cart.cpuRead a, s)

/-- The value a read of an address returns: the model's read of one byte of the CPU space. -/
def peek (s : State) (a : Word) : Byte := (cpuRead a s).1

/-- The last `n` of the 256 copies of an OAM DMA from page `page` (R140): each reads the bus, then stores in OAM from
the OAM address on. -/
def dmaCopy (page : Byte) : Nat → State → State
  | 0, s => s
  | n + 1, s =>
    let i : Byte := BitVec.ofNat 8 (255 - n)
    let r := cpuRead (word page i) s
    dmaCopy page n (r.2.setPpu (r.2.ppu.oamStore (r.2.ppu.oamAddr + i) r.1))

/-- OAM DMA (R140). -/
def oamDma (page : Byte) (s : State) : State := dmaCopy page 256 s

/-- `cpu_write(a, v)`: one bus access (R101). -/
def cpuWrite (a : Word) (v : Byte) (s : State) : State :=
  match region a with
  | .ram k => { s with ram := s.ram.write k v }
  | .ppuReg r =>
    let w := s.ppu.regWrite s.cart r v
    { s with ppu := w.1, cart := w.2 }
  | .oamDma => oamDma v s
  | .pad1 => { s with ctl1 := s.ctl1.strobeWrite v, ctl2 := s.ctl2.strobeWrite v }
  | .pad2 => s
  | .apu => s
  | .cart => { s with cart := s.cart.cpuWrite a v }

/-- The extra cycles of the instruction that writes `a`, whose own cycles are `base`, `s` being the state before it
(R141). -/
def dmaStall (a : Word) (base : Nat) (s : State) : Nat :=
  if a = 0x4014 then 513 + (s.cpu.cycles + base) % 2 else 0

/-- `cpu_read16(a)`: low byte first, the high byte from `a + 1` modulo 65536 (R110). -/
def cpuRead16 (a : Word) (s : State) : Word × State :=
  let lo := cpuRead a s
  let hi := cpuRead (a + 1) lo.2
  (word hi.1 lo.1, hi.2)

/-- The stack address of S: page 1 (10_state.md R34). -/
def stackAddr (sp : Byte) : Word := word 0x01 sp

/-- `push(v)` (R45). -/
def push (v : Byte) (s : State) : State :=
  let s1 := cpuWrite (stackAddr s.cpu.sp) v s
  s1.setSp (s1.cpu.sp - 1)

/-- `pull()` (R46). -/
def pull (s : State) : Byte × State :=
  let s1 := s.setSp (s.cpu.sp + 1)
  cpuRead (stackAddr s1.cpu.sp) s1

/-- Push a 16-bit address, high byte first (R111). -/
def push16 (w : Word) (s : State) : State := push (loByte w) (push (hiByte w) s)

/-- Pull a 16-bit address, low byte first (R332, R333). -/
def pull16 (s : State) : Word × State :=
  let lo := pull s
  let hi := pull lo.2
  (word hi.1 lo.1, hi.2)

/-- `PC <- MemRead(vector, 2)` (20_memory.md R117). -/
def jumpVector (vector : Word) (s : State) : State :=
  let r := cpuRead16 vector s
  r.2.setPc r.1

/-- The NMI, RESET and IRQ/BRK vectors (R117). -/
def nmiVector : Word := 0xFFFA

@[inherit_doc nmiVector] def resetVector : Word := 0xFFFC

@[inherit_doc nmiVector] def irqVector : Word := 0xFFFE

/-- TAKING AN INTERRUPT, the one sequence of NMI, IRQ and BRK (60_exceptions.md R663, R665, R671; 45_control.md
R334): push the return address, then the status with bit 4 = `b`, set I, and jump through the vector. D stays. -/
def takeInterrupt (b : Bool) (ret vector : Word) (s : State) : State :=
  let s1 := push16 ret s
  let s2 := push (s1.cpu.p.toByte b) s1
  jumpVector vector (s2.setP { s2.cpu.p with i := true })

/-- RETURNING FROM ONE (45_control.md R333, 60_exceptions.md R672): pull the status, then the address. -/
def returnFromInterrupt (s : State) : State :=
  let v := pull s
  let r := pull16 (v.2.setP (Status.ofByte v.1))
  r.2.setPc r.1

/-- `cpu.nmi()` (R663). A halted CPU ignores it. -/
def nmi (s : State) : State :=
  if s.cpu.halted then s else (takeInterrupt false s.cpu.pc nmiVector s).charge 7

/-- `cpu.irq()` (R665). A halted CPU ignores it. -/
def irq (s : State) : State :=
  if s.cpu.halted then s else (takeInterrupt false s.cpu.pc irqVector s).charge 7

/-- The registers `cpu.reset()` sets (10_state.md R50, R661); the cycle counter and the IRQ line stay. -/
def Cpu.resetRegisters (c : Cpu) : Cpu :=
  { Cpu.powerOn with pc := c.pc, cycles := c.cycles, irqLine := c.irqLine }

/-- `cpu.reset()` (R661): taken even while halted. -/
def cpuReset (s : State) : State :=
  (jumpVector resetVector (s.setCpu s.cpu.resetRegisters)).charge 7

end Sys2Proof.Machine
end

