-- ==== Sys2Proof/Machine/Operands.lean ====
section
/-! DEFINITION. Operand forms and cycle accounting (spec/30_encoding.md R153 to R169, R175; 20_memory.md R115): how an
effective address is computed, and the shapes of instruction that the families' meanings are made of. A meaning gets
the state after the fetch, so PC is the address after the instruction (R152). -/

namespace Sys2Proof.Machine

/-- What an instruction answers. -/
abbrev Answer := Host.Outcome State Fault Refusal

/-- The base address, the effective address, and whether indexing changed its high byte (R161 to R168). -/
structure Located where
  base : Word
  ea : Word
  crossed : Bool
deriving DecidableEq, Repr

/-- An address that needs no indexing across pages (R157 to R160, R163). -/
def Located.plain (a : Word) : Located := { base := a, ea := a, crossed := false }

/-- `base + index` modulo 65536, and whether the page changed (R161, R162, R164). -/
def Located.indexed (base : Word) (index : Byte) : Located :=
  let ea := base + index.setWidth 16
  { base := base, ea := ea, crossed := hiByte base != hiByte ea }

/-- A zero-page address (R157). -/
def zeroPage (a : Byte) : Word := word 0x00 a

/-- A pointer in the zero page: its high byte wraps within the page (R163, R164). -/
def readPointer (p : Byte) (s : State) : Word × State :=
  let lo := cpuRead (zeroPage p) s
  let hi := cpuRead (zeroPage (p + 1)) lo.2
  (word hi.1 lo.1, hi.2)

/-- The pointer of JMP (ind): its high byte comes from the same page (R165). -/
def readIndirect (p : Word) (s : State) : Word × State :=
  let lo := cpuRead p s
  let hi := cpuRead (word (hiByte p) (loByte p + 1)) lo.2
  (word hi.1 lo.1, hi.2)

/-- The effective address of a memory operand; the two pointer modes read the bus (R157 to R164). -/
def locate (p : Place) (s : State) : Located × State :=
  match p with
  | .zp a => (Located.plain (zeroPage a), s)
  | .zpX a => (Located.plain (zeroPage (a + s.cpu.x)), s)
  | .zpY a => (Located.plain (zeroPage (a + s.cpu.y)), s)
  | .abs a => (Located.plain a, s)
  | .absX a => (Located.indexed a s.cpu.x, s)
  | .absY a => (Located.indexed a s.cpu.y, s)
  | .izX q =>
    let r := readPointer (q + s.cpu.x) s
    (Located.plain r.1, r.2)
  | .izY q =>
    let r := readPointer q s
    (Located.indexed r.1 r.2.cpu.y, r.2)

/-- The cycles column of R177: a base count, and whether a page cross adds one (R169). -/
structure Cost where
  base : Nat
  page : Bool
deriving DecidableEq, Repr

/-- A count with no page penalty. -/
def Cost.fixed (n : Nat) : Cost := { base := n, page := false }

/-- A count with "+1 if page crossed". -/
def Cost.paged (n : Nat) : Cost := { base := n, page := true }

/-- BASE plus the page penalty (R169). -/
def Cost.cycles (c : Cost) (crossed : Bool) : Nat := c.base + bitNat (c.page && crossed)

/-- The operand of an instruction that reads: an immediate byte, or memory (R154). -/
inductive Source where
  | imm (m : Byte)
  | mem (p : Place)
deriving DecidableEq, Repr

/-- The operand value, whether a page was crossed, and the state after the bus accesses (R154, R175). -/
structure Loaded where
  m : Byte
  crossed : Bool
  s : State
deriving DecidableEq, Repr

/-- Read an operand: one `MemRead(EA)` for memory, none beyond the fetch for an immediate (R154). -/
def loadSource (src : Source) (s : State) : Loaded :=
  match src with
  | .imm m => { m := m, crossed := false, s := s }
  | .mem p =>
    let l := locate p s
    let r := cpuRead l.1.ea l.2
    { m := r.1, crossed := l.1.crossed, s := r.2 }

/-- A read instruction: read the operand, change the registers by it, report the cycles (R175). -/
def readInstr (f : Byte → Cpu → Cpu) (src : Source) (cost : Cost) (s : State) : State :=
  let r := loadSource src s
  (r.s.mapCpu (f r.m)).charge (cost.cycles r.crossed)

/-- A write instruction: one `MemWrite(EA)` of a register value, no read of EA (R175). -/
def writeInstr (val : Cpu → Byte) (p : Place) (cost : Cost) (s : State) : State :=
  let l := locate p s
  (cpuWrite l.1.ea (val l.2.cpu) l.2).charge (cost.base + dmaStall l.1.ea cost.base l.2)

/-- What a read-modify-write instruction makes of its operand: the byte written back, and the registers. -/
structure Modified where
  r : Byte
  cpu : Cpu
deriving DecidableEq, Repr

/-- A read-modify-write instruction in memory: one `MemRead(EA)`, then one `MemWrite(EA)` (R175). -/
def modifyInstr (f : Byte → Cpu → Modified) (p : Place) (cost : Cost) (s : State) : State :=
  let l := locate p s
  let r := cpuRead l.1.ea l.2
  let w := f r.1 r.2.cpu
  ((cpuWrite l.1.ea w.r r.2).setCpu w.cpu).charge (cost.base + dmaStall l.1.ea cost.base r.2)

/-- The accumulator form of a read-modify-write instruction (R167). -/
def modifyAcc (f : Byte → Cpu → Modified) (cost : Cost) (s : State) : State :=
  let w := f s.cpu.a s.cpu
  (s.setCpu { w.cpu with a := w.r }).charge cost.base

/-- An instruction on registers alone. -/
def registerInstr (f : Cpu → Cpu) (cost : Cost) (s : State) : State := (s.mapCpu f).charge cost.base

/-- The target of a branch and whether it lies on another page than the next instruction (R166). -/
def branchTarget (next : Word) (d : Byte) : Located :=
  let target := next + d.signExtend 16
  { base := next, ea := target, crossed := hiByte next != hiByte target }

/-- `BRANCH(cond)` (45_control.md R321). -/
def branchInstr (cond : Status → Bool) (d : Byte) (cost : Cost) (s : State) : State :=
  let t := branchTarget s.cpu.pc d
  if cond s.cpu.p then (s.setPc t.ea).charge (cost.base + (1 + bitNat t.crossed)) else s.charge cost.base

/-- `SH_STORE`: the value is `val H` with `H = hi(base) + 1`; on a page cross it also replaces the high byte of the
address (47_unofficial.md R414, D12). `before` acts on the registers first (TAS). -/
def shStore (before : Cpu → Cpu) (val : Byte → Cpu → Byte) (p : Place) (cost : Cost) (s : State) : State :=
  let l := locate p s
  let s1 := l.2.mapCpu before
  let v := val (hiByte l.1.base + 1) s1.cpu
  let ea := if l.1.crossed then word v (loByte l.1.ea) else l.1.ea
  (cpuWrite ea v s1).charge (cost.base + dmaStall ea cost.base s1)

end Sys2Proof.Machine
end

