-- ==== Sys2Proof/Machine/Arith.lean ====
section
/-! DEFINITION. The meanings of arithmetic, logic, compare and increment instructions (spec/43_arith_logic.md
R250 to R267): one definition per constructor of `Instr`, over the shared shapes of Operands.lean. Each gets the state
after the fetch (30_encoding.md R152) and reports its cycles (R177). -/

namespace Sys2Proof.Machine

/-- ADC: `ADD8(A, M, C)` (R251). -/
def effectAdc (m : Byte) (c : Cpu) : Cpu := c.addA m c.p.c

/-- SBC: `ADD8(A, M ^ 0xFF, C)` (R252). -/
def effectSbc (m : Byte) (c : Cpu) : Cpu := c.addA (m ^^^ 0xFF) c.p.c

/-- AND: `A <- A & M; setNZ(A)` (R253). -/
def effectAnd (m : Byte) (c : Cpu) : Cpu := c.loadA (c.a &&& m)

/-- ORA: `A <- A | M; setNZ(A)` (R254). -/
def effectOra (m : Byte) (c : Cpu) : Cpu := c.loadA (c.a ||| m)

/-- EOR: `A <- A ^ M; setNZ(A)` (R255). -/
def effectEor (m : Byte) (c : Cpu) : Cpu := c.loadA (c.a ^^^ m)

/-- CMP: `COMPARE(A, M)` (R257). -/
def effectCmp (m : Byte) (c : Cpu) : Cpu := { c with p := c.p.compare c.a m }

/-- CPX: `COMPARE(X, M)` (R258). -/
def effectCpx (m : Byte) (c : Cpu) : Cpu := { c with p := c.p.compare c.x m }

/-- CPY: `COMPARE(Y, M)` (R259). -/
def effectCpy (m : Byte) (c : Cpu) : Cpu := { c with p := c.p.compare c.y m }

/-- BIT: Z from `A & M`, N and V from M (R260). -/
def effectBit (m : Byte) (c : Cpu) : Cpu := { c with p := c.p.bitTest c.a m }

/-- INC: `r <- M + 1; setNZ(r)` (R261). -/
def effectInc (m : Byte) (c : Cpu) : Modified := { r := m + 1, cpu := { c with p := c.p.setNZ (m + 1) } }

/-- DEC: `r <- M - 1; setNZ(r)` (R262). -/
def effectDec (m : Byte) (c : Cpu) : Modified := { r := m - 1, cpu := { c with p := c.p.setNZ (m - 1) } }

/-- INX (R263). -/
def effectInx (c : Cpu) : Cpu := c.loadX (c.x + 1)

/-- INY (R264). -/
def effectIny (c : Cpu) : Cpu := c.loadY (c.y + 1)

/-- DEX (R265). -/
def effectDex (c : Cpu) : Cpu := c.loadX (c.x - 1)

/-- DEY (R266). -/
def effectDey (c : Cpu) : Cpu := c.loadY (c.y - 1)

/-- ORA ($nn,X): 0x01, 6 cycles. (R254) -/
def execOraIzX (p : Byte) (s : State) : Answer :=
  .next (readInstr effectOra (.mem (.izX p)) (.fixed 6) s)

/-- ORA $nn: 0x05, 3 cycles. (R254) -/
def execOraZp (a : Byte) (s : State) : Answer :=
  .next (readInstr effectOra (.mem (.zp a)) (.fixed 3) s)

/-- ORA #$nn: 0x09, 2 cycles. (R254) -/
def execOraImm (m : Byte) (s : State) : Answer :=
  .next (readInstr effectOra (.imm m) (.fixed 2) s)

/-- ORA $nnnn: 0x0D, 4 cycles. (R254) -/
def execOraAbs (a : Word) (s : State) : Answer :=
  .next (readInstr effectOra (.mem (.abs a)) (.fixed 4) s)

/-- ORA ($nn),Y: 0x11, 5 cycles, +1 if a page is crossed. (R254) -/
def execOraIzY (p : Byte) (s : State) : Answer :=
  .next (readInstr effectOra (.mem (.izY p)) (.paged 5) s)

/-- ORA $nn,X: 0x15, 4 cycles. (R254) -/
def execOraZpX (a : Byte) (s : State) : Answer :=
  .next (readInstr effectOra (.mem (.zpX a)) (.fixed 4) s)

/-- ORA $nnnn,Y: 0x19, 4 cycles, +1 if a page is crossed. (R254) -/
def execOraAbsY (a : Word) (s : State) : Answer :=
  .next (readInstr effectOra (.mem (.absY a)) (.paged 4) s)

/-- ORA $nnnn,X: 0x1D, 4 cycles, +1 if a page is crossed. (R254) -/
def execOraAbsX (a : Word) (s : State) : Answer :=
  .next (readInstr effectOra (.mem (.absX a)) (.paged 4) s)

/-- AND ($nn,X): 0x21, 6 cycles. (R253) -/
def execAndIzX (p : Byte) (s : State) : Answer :=
  .next (readInstr effectAnd (.mem (.izX p)) (.fixed 6) s)

/-- BIT $nn: 0x24, 3 cycles. (R260) -/
def execBitZp (a : Byte) (s : State) : Answer :=
  .next (readInstr effectBit (.mem (.zp a)) (.fixed 3) s)

/-- AND $nn: 0x25, 3 cycles. (R253) -/
def execAndZp (a : Byte) (s : State) : Answer :=
  .next (readInstr effectAnd (.mem (.zp a)) (.fixed 3) s)

/-- AND #$nn: 0x29, 2 cycles. (R253) -/
def execAndImm (m : Byte) (s : State) : Answer :=
  .next (readInstr effectAnd (.imm m) (.fixed 2) s)

/-- BIT $nnnn: 0x2C, 4 cycles. (R260) -/
def execBitAbs (a : Word) (s : State) : Answer :=
  .next (readInstr effectBit (.mem (.abs a)) (.fixed 4) s)

/-- AND $nnnn: 0x2D, 4 cycles. (R253) -/
def execAndAbs (a : Word) (s : State) : Answer :=
  .next (readInstr effectAnd (.mem (.abs a)) (.fixed 4) s)

/-- AND ($nn),Y: 0x31, 5 cycles, +1 if a page is crossed. (R253) -/
def execAndIzY (p : Byte) (s : State) : Answer :=
  .next (readInstr effectAnd (.mem (.izY p)) (.paged 5) s)

/-- AND $nn,X: 0x35, 4 cycles. (R253) -/
def execAndZpX (a : Byte) (s : State) : Answer :=
  .next (readInstr effectAnd (.mem (.zpX a)) (.fixed 4) s)

/-- AND $nnnn,Y: 0x39, 4 cycles, +1 if a page is crossed. (R253) -/
def execAndAbsY (a : Word) (s : State) : Answer :=
  .next (readInstr effectAnd (.mem (.absY a)) (.paged 4) s)

/-- AND $nnnn,X: 0x3D, 4 cycles, +1 if a page is crossed. (R253) -/
def execAndAbsX (a : Word) (s : State) : Answer :=
  .next (readInstr effectAnd (.mem (.absX a)) (.paged 4) s)

/-- EOR ($nn,X): 0x41, 6 cycles. (R255) -/
def execEorIzX (p : Byte) (s : State) : Answer :=
  .next (readInstr effectEor (.mem (.izX p)) (.fixed 6) s)

/-- EOR $nn: 0x45, 3 cycles. (R255) -/
def execEorZp (a : Byte) (s : State) : Answer :=
  .next (readInstr effectEor (.mem (.zp a)) (.fixed 3) s)

/-- EOR #$nn: 0x49, 2 cycles. (R255) -/
def execEorImm (m : Byte) (s : State) : Answer :=
  .next (readInstr effectEor (.imm m) (.fixed 2) s)

/-- EOR $nnnn: 0x4D, 4 cycles. (R255) -/
def execEorAbs (a : Word) (s : State) : Answer :=
  .next (readInstr effectEor (.mem (.abs a)) (.fixed 4) s)

/-- EOR ($nn),Y: 0x51, 5 cycles, +1 if a page is crossed. (R255) -/
def execEorIzY (p : Byte) (s : State) : Answer :=
  .next (readInstr effectEor (.mem (.izY p)) (.paged 5) s)

/-- EOR $nn,X: 0x55, 4 cycles. (R255) -/
def execEorZpX (a : Byte) (s : State) : Answer :=
  .next (readInstr effectEor (.mem (.zpX a)) (.fixed 4) s)

/-- EOR $nnnn,Y: 0x59, 4 cycles, +1 if a page is crossed. (R255) -/
def execEorAbsY (a : Word) (s : State) : Answer :=
  .next (readInstr effectEor (.mem (.absY a)) (.paged 4) s)

/-- EOR $nnnn,X: 0x5D, 4 cycles, +1 if a page is crossed. (R255) -/
def execEorAbsX (a : Word) (s : State) : Answer :=
  .next (readInstr effectEor (.mem (.absX a)) (.paged 4) s)

/-- ADC ($nn,X): 0x61, 6 cycles. (R251) -/
def execAdcIzX (p : Byte) (s : State) : Answer :=
  .next (readInstr effectAdc (.mem (.izX p)) (.fixed 6) s)

/-- ADC $nn: 0x65, 3 cycles. (R251) -/
def execAdcZp (a : Byte) (s : State) : Answer :=
  .next (readInstr effectAdc (.mem (.zp a)) (.fixed 3) s)

/-- ADC #$nn: 0x69, 2 cycles. (R251) -/
def execAdcImm (m : Byte) (s : State) : Answer :=
  .next (readInstr effectAdc (.imm m) (.fixed 2) s)

/-- ADC $nnnn: 0x6D, 4 cycles. (R251) -/
def execAdcAbs (a : Word) (s : State) : Answer :=
  .next (readInstr effectAdc (.mem (.abs a)) (.fixed 4) s)

/-- ADC ($nn),Y: 0x71, 5 cycles, +1 if a page is crossed. (R251) -/
def execAdcIzY (p : Byte) (s : State) : Answer :=
  .next (readInstr effectAdc (.mem (.izY p)) (.paged 5) s)

/-- ADC $nn,X: 0x75, 4 cycles. (R251) -/
def execAdcZpX (a : Byte) (s : State) : Answer :=
  .next (readInstr effectAdc (.mem (.zpX a)) (.fixed 4) s)

/-- ADC $nnnn,Y: 0x79, 4 cycles, +1 if a page is crossed. (R251) -/
def execAdcAbsY (a : Word) (s : State) : Answer :=
  .next (readInstr effectAdc (.mem (.absY a)) (.paged 4) s)

/-- ADC $nnnn,X: 0x7D, 4 cycles, +1 if a page is crossed. (R251) -/
def execAdcAbsX (a : Word) (s : State) : Answer :=
  .next (readInstr effectAdc (.mem (.absX a)) (.paged 4) s)

/-- DEY: 0x88, 2 cycles. (R266) -/
def execDey (s : State) : Answer :=
  .next (registerInstr effectDey (.fixed 2) s)

/-- CPY #$nn: 0xC0, 2 cycles. (R259) -/
def execCpyImm (m : Byte) (s : State) : Answer :=
  .next (readInstr effectCpy (.imm m) (.fixed 2) s)

/-- CMP ($nn,X): 0xC1, 6 cycles. (R257) -/
def execCmpIzX (p : Byte) (s : State) : Answer :=
  .next (readInstr effectCmp (.mem (.izX p)) (.fixed 6) s)

/-- CPY $nn: 0xC4, 3 cycles. (R259) -/
def execCpyZp (a : Byte) (s : State) : Answer :=
  .next (readInstr effectCpy (.mem (.zp a)) (.fixed 3) s)

/-- CMP $nn: 0xC5, 3 cycles. (R257) -/
def execCmpZp (a : Byte) (s : State) : Answer :=
  .next (readInstr effectCmp (.mem (.zp a)) (.fixed 3) s)

/-- DEC $nn: 0xC6, 5 cycles. (R262) -/
def execDecZp (a : Byte) (s : State) : Answer :=
  .next (modifyInstr effectDec (.zp a) (.fixed 5) s)

/-- INY: 0xC8, 2 cycles. (R264) -/
def execIny (s : State) : Answer :=
  .next (registerInstr effectIny (.fixed 2) s)

/-- CMP #$nn: 0xC9, 2 cycles. (R257) -/
def execCmpImm (m : Byte) (s : State) : Answer :=
  .next (readInstr effectCmp (.imm m) (.fixed 2) s)

/-- DEX: 0xCA, 2 cycles. (R265) -/
def execDex (s : State) : Answer :=
  .next (registerInstr effectDex (.fixed 2) s)

/-- CPY $nnnn: 0xCC, 4 cycles. (R259) -/
def execCpyAbs (a : Word) (s : State) : Answer :=
  .next (readInstr effectCpy (.mem (.abs a)) (.fixed 4) s)

/-- CMP $nnnn: 0xCD, 4 cycles. (R257) -/
def execCmpAbs (a : Word) (s : State) : Answer :=
  .next (readInstr effectCmp (.mem (.abs a)) (.fixed 4) s)

/-- DEC $nnnn: 0xCE, 6 cycles. (R262) -/
def execDecAbs (a : Word) (s : State) : Answer :=
  .next (modifyInstr effectDec (.abs a) (.fixed 6) s)

/-- CMP ($nn),Y: 0xD1, 5 cycles, +1 if a page is crossed. (R257) -/
def execCmpIzY (p : Byte) (s : State) : Answer :=
  .next (readInstr effectCmp (.mem (.izY p)) (.paged 5) s)

/-- CMP $nn,X: 0xD5, 4 cycles. (R257) -/
def execCmpZpX (a : Byte) (s : State) : Answer :=
  .next (readInstr effectCmp (.mem (.zpX a)) (.fixed 4) s)

/-- DEC $nn,X: 0xD6, 6 cycles. (R262) -/
def execDecZpX (a : Byte) (s : State) : Answer :=
  .next (modifyInstr effectDec (.zpX a) (.fixed 6) s)

/-- CMP $nnnn,Y: 0xD9, 4 cycles, +1 if a page is crossed. (R257) -/
def execCmpAbsY (a : Word) (s : State) : Answer :=
  .next (readInstr effectCmp (.mem (.absY a)) (.paged 4) s)

/-- CMP $nnnn,X: 0xDD, 4 cycles, +1 if a page is crossed. (R257) -/
def execCmpAbsX (a : Word) (s : State) : Answer :=
  .next (readInstr effectCmp (.mem (.absX a)) (.paged 4) s)

/-- DEC $nnnn,X: 0xDE, 7 cycles. (R262) -/
def execDecAbsX (a : Word) (s : State) : Answer :=
  .next (modifyInstr effectDec (.absX a) (.fixed 7) s)

/-- CPX #$nn: 0xE0, 2 cycles. (R258) -/
def execCpxImm (m : Byte) (s : State) : Answer :=
  .next (readInstr effectCpx (.imm m) (.fixed 2) s)

/-- SBC ($nn,X): 0xE1, 6 cycles. (R252) -/
def execSbcIzX (p : Byte) (s : State) : Answer :=
  .next (readInstr effectSbc (.mem (.izX p)) (.fixed 6) s)

/-- CPX $nn: 0xE4, 3 cycles. (R258) -/
def execCpxZp (a : Byte) (s : State) : Answer :=
  .next (readInstr effectCpx (.mem (.zp a)) (.fixed 3) s)

/-- SBC $nn: 0xE5, 3 cycles. (R252) -/
def execSbcZp (a : Byte) (s : State) : Answer :=
  .next (readInstr effectSbc (.mem (.zp a)) (.fixed 3) s)

/-- INC $nn: 0xE6, 5 cycles. (R261) -/
def execIncZp (a : Byte) (s : State) : Answer :=
  .next (modifyInstr effectInc (.zp a) (.fixed 5) s)

/-- INX: 0xE8, 2 cycles. (R263) -/
def execInx (s : State) : Answer :=
  .next (registerInstr effectInx (.fixed 2) s)

/-- SBC #$nn: 0xE9, 2 cycles. (R252) -/
def execSbcImm (m : Byte) (s : State) : Answer :=
  .next (readInstr effectSbc (.imm m) (.fixed 2) s)

/-- CPX $nnnn: 0xEC, 4 cycles. (R258) -/
def execCpxAbs (a : Word) (s : State) : Answer :=
  .next (readInstr effectCpx (.mem (.abs a)) (.fixed 4) s)

/-- SBC $nnnn: 0xED, 4 cycles. (R252) -/
def execSbcAbs (a : Word) (s : State) : Answer :=
  .next (readInstr effectSbc (.mem (.abs a)) (.fixed 4) s)

/-- INC $nnnn: 0xEE, 6 cycles. (R261) -/
def execIncAbs (a : Word) (s : State) : Answer :=
  .next (modifyInstr effectInc (.abs a) (.fixed 6) s)

/-- SBC ($nn),Y: 0xF1, 5 cycles, +1 if a page is crossed. (R252) -/
def execSbcIzY (p : Byte) (s : State) : Answer :=
  .next (readInstr effectSbc (.mem (.izY p)) (.paged 5) s)

/-- SBC $nn,X: 0xF5, 4 cycles. (R252) -/
def execSbcZpX (a : Byte) (s : State) : Answer :=
  .next (readInstr effectSbc (.mem (.zpX a)) (.fixed 4) s)

/-- INC $nn,X: 0xF6, 6 cycles. (R261) -/
def execIncZpX (a : Byte) (s : State) : Answer :=
  .next (modifyInstr effectInc (.zpX a) (.fixed 6) s)

/-- SBC $nnnn,Y: 0xF9, 4 cycles, +1 if a page is crossed. (R252) -/
def execSbcAbsY (a : Word) (s : State) : Answer :=
  .next (readInstr effectSbc (.mem (.absY a)) (.paged 4) s)

/-- SBC $nnnn,X: 0xFD, 4 cycles, +1 if a page is crossed. (R252) -/
def execSbcAbsX (a : Word) (s : State) : Answer :=
  .next (readInstr effectSbc (.mem (.absX a)) (.paged 4) s)

/-- INC $nnnn,X: 0xFE, 7 cycles. (R261) -/
def execIncAbsX (a : Word) (s : State) : Answer :=
  .next (modifyInstr effectInc (.absX a) (.fixed 7) s)

end Sys2Proof.Machine
end

