-- ==== Sys2Proof/Machine/Control.lean ====
section
/-! DEFINITION. The meanings of control transfer instructions (spec/45_control.md R320 to R335): one definition
per constructor of `Instr`, over the shared shapes of Operands.lean. Each gets the state after the fetch
(30_encoding.md R152) and reports its cycles (R177). -/

namespace Sys2Proof.Machine

/-- BRK: 0x00, 7 cycles. It pushes PC + 1, the address of the opcode + 2, and B = 1. (R334) -/
def execBrk (s : State) : Answer :=
  .next ((takeInterrupt true (s.cpu.pc + 1) irqVector s).charge 7)

/-- BPL $nnnn (target): 0x10, 2 cycles, 3 if taken, 4 to another page. (R327) -/
def execBpl (d : Byte) (s : State) : Answer :=
  .next (branchInstr (fun p => !p.n) d (.fixed 2) s)

/-- JSR $nnnn: 0x20, 6 cycles. It pushes the address of its own last byte. (R331) -/
def execJsrAbs (a : Word) (s : State) : Answer :=
  .next (((push16 (s.cpu.pc - 1) s).setPc a).charge 6)

/-- BMI $nnnn (target): 0x30, 2 cycles, 3 if taken, 4 to another page. (R326) -/
def execBmi (d : Byte) (s : State) : Answer :=
  .next (branchInstr (fun p => p.n) d (.fixed 2) s)

/-- RTI: 0x40, 6 cycles. No + 1. (R333) -/
def execRti (s : State) : Answer :=
  .next ((returnFromInterrupt s).charge 6)

/-- JMP $nnnn: 0x4C, 3 cycles. (R330) -/
def execJmpAbs (a : Word) (s : State) : Answer :=
  .next ((s.setPc a).charge 3)

/-- BVC $nnnn (target): 0x50, 2 cycles, 3 if taken, 4 to another page. (R328) -/
def execBvc (d : Byte) (s : State) : Answer :=
  .next (branchInstr (fun p => !p.v) d (.fixed 2) s)

/-- RTS: 0x60, 6 cycles. The pulled address plus 1. (R332) -/
def execRts (s : State) : Answer :=
  .next <|
    let r := pull16 s
    (r.2.setPc (r.1 + 1)).charge 6

/-- JMP ($nnnn): 0x6C, 5 cycles. The pointer wraps in its page. (R330) -/
def execJmpInd (p : Word) (s : State) : Answer :=
  .next <|
    let r := readIndirect p s
    (r.2.setPc r.1).charge 5

/-- BVS $nnnn (target): 0x70, 2 cycles, 3 if taken, 4 to another page. (R329) -/
def execBvs (d : Byte) (s : State) : Answer :=
  .next (branchInstr (fun p => p.v) d (.fixed 2) s)

/-- BCC $nnnn (target): 0x90, 2 cycles, 3 if taken, 4 to another page. (R322) -/
def execBcc (d : Byte) (s : State) : Answer :=
  .next (branchInstr (fun p => !p.c) d (.fixed 2) s)

/-- BCS $nnnn (target): 0xB0, 2 cycles, 3 if taken, 4 to another page. (R323) -/
def execBcs (d : Byte) (s : State) : Answer :=
  .next (branchInstr (fun p => p.c) d (.fixed 2) s)

/-- BNE $nnnn (target): 0xD0, 2 cycles, 3 if taken, 4 to another page. (R325) -/
def execBne (d : Byte) (s : State) : Answer :=
  .next (branchInstr (fun p => !p.z) d (.fixed 2) s)

/-- NOP: 0xEA, 2 cycles. (R335) -/
def execNop (s : State) : Answer :=
  .next (registerInstr id (.fixed 2) s)

/-- BEQ $nnnn (target): 0xF0, 2 cycles, 3 if taken, 4 to another page. (R324) -/
def execBeq (d : Byte) (s : State) : Answer :=
  .next (branchInstr (fun p => p.z) d (.fixed 2) s)

end Sys2Proof.Machine
end

