-- ==== Sys2Proof/Machine/FlagInstr.lean ====
section
/-! DEFINITION. The meanings of the flag instructions (spec/46_flags.md R370 to R377): one definition
per constructor of `Instr`, over the shared shapes of Operands.lean. Each gets the state after the fetch
(30_encoding.md R152) and reports its cycles (R177). -/

namespace Sys2Proof.Machine

/-- `SETFLAG`: change the stored flags and nothing else (R370). -/
def setFlags (f : Status → Status) (c : Cpu) : Cpu := { c with p := f c.p }

/-- CLC: 0x18, 2 cycles. (R371) -/
def execClc (s : State) : Answer :=
  .next (registerInstr (setFlags fun p => { p with c := false }) (.fixed 2) s)

/-- SEC: 0x38, 2 cycles. (R372) -/
def execSec (s : State) : Answer :=
  .next (registerInstr (setFlags fun p => { p with c := true }) (.fixed 2) s)

/-- CLI: 0x58, 2 cycles. (R373) -/
def execCli (s : State) : Answer :=
  .next (registerInstr (setFlags fun p => { p with i := false }) (.fixed 2) s)

/-- SEI: 0x78, 2 cycles. (R374) -/
def execSei (s : State) : Answer :=
  .next (registerInstr (setFlags fun p => { p with i := true }) (.fixed 2) s)

/-- CLV: 0xB8, 2 cycles. (R377) -/
def execClv (s : State) : Answer :=
  .next (registerInstr (setFlags fun p => { p with v := false }) (.fixed 2) s)

/-- CLD: 0xD8, 2 cycles. (R375) -/
def execCld (s : State) : Answer :=
  .next (registerInstr (setFlags fun p => { p with d := false }) (.fixed 2) s)

/-- SED: 0xF8, 2 cycles. (R376) -/
def execSed (s : State) : Answer :=
  .next (registerInstr (setFlags fun p => { p with d := true }) (.fixed 2) s)

end Sys2Proof.Machine
end

