-- ==== Sys2Proof/Machine/LoadTransfer.lean ====
section
/-! DEFINITION. The meanings of loads, stores and register transfers (spec/41_load_transfer.md R201 to R212): one definition
per constructor of `Instr`, over the shared shapes of Operands.lean. Each gets the state after the fetch
(30_encoding.md R152) and reports its cycles (R177). -/

namespace Sys2Proof.Machine

/-- LDA: `A <- M; setNZ(A)` (R201). -/
def effectLda (m : Byte) (c : Cpu) : Cpu := c.loadA m

/-- LDX: `X <- M; setNZ(X)` (R202). -/
def effectLdx (m : Byte) (c : Cpu) : Cpu := c.loadX m

/-- LDY: `Y <- M; setNZ(Y)` (R203). -/
def effectLdy (m : Byte) (c : Cpu) : Cpu := c.loadY m

/-- TAX: `X <- A; setNZ(X)` (R207). -/
def effectTax (c : Cpu) : Cpu := c.loadX c.a

/-- TAY: `Y <- A; setNZ(Y)` (R208). -/
def effectTay (c : Cpu) : Cpu := c.loadY c.a

/-- TXA: `A <- X; setNZ(A)` (R209). -/
def effectTxa (c : Cpu) : Cpu := c.loadA c.x

/-- TYA: `A <- Y; setNZ(A)` (R210). -/
def effectTya (c : Cpu) : Cpu := c.loadA c.y

/-- TSX: `X <- S; setNZ(X)` (R211). -/
def effectTsx (c : Cpu) : Cpu := c.loadX c.sp

/-- TXS: `S <- X`, no flag (R212). -/
def effectTxs (c : Cpu) : Cpu := { c with sp := c.x }

/-- STA ($nn,X): 0x81, 6 cycles. (R204) -/
def execStaIzX (p : Byte) (s : State) : Answer :=
  .next (writeInstr Cpu.a (.izX p) (.fixed 6) s)

/-- STY $nn: 0x84, 3 cycles. (R206) -/
def execStyZp (a : Byte) (s : State) : Answer :=
  .next (writeInstr Cpu.y (.zp a) (.fixed 3) s)

/-- STA $nn: 0x85, 3 cycles. (R204) -/
def execStaZp (a : Byte) (s : State) : Answer :=
  .next (writeInstr Cpu.a (.zp a) (.fixed 3) s)

/-- STX $nn: 0x86, 3 cycles. (R205) -/
def execStxZp (a : Byte) (s : State) : Answer :=
  .next (writeInstr Cpu.x (.zp a) (.fixed 3) s)

/-- TXA: 0x8A, 2 cycles. (R209) -/
def execTxa (s : State) : Answer :=
  .next (registerInstr effectTxa (.fixed 2) s)

/-- STY $nnnn: 0x8C, 4 cycles. (R206) -/
def execStyAbs (a : Word) (s : State) : Answer :=
  .next (writeInstr Cpu.y (.abs a) (.fixed 4) s)

/-- STA $nnnn: 0x8D, 4 cycles. (R204) -/
def execStaAbs (a : Word) (s : State) : Answer :=
  .next (writeInstr Cpu.a (.abs a) (.fixed 4) s)

/-- STX $nnnn: 0x8E, 4 cycles. (R205) -/
def execStxAbs (a : Word) (s : State) : Answer :=
  .next (writeInstr Cpu.x (.abs a) (.fixed 4) s)

/-- STA ($nn),Y: 0x91, 6 cycles. (R204) -/
def execStaIzY (p : Byte) (s : State) : Answer :=
  .next (writeInstr Cpu.a (.izY p) (.fixed 6) s)

/-- STY $nn,X: 0x94, 4 cycles. (R206) -/
def execStyZpX (a : Byte) (s : State) : Answer :=
  .next (writeInstr Cpu.y (.zpX a) (.fixed 4) s)

/-- STA $nn,X: 0x95, 4 cycles. (R204) -/
def execStaZpX (a : Byte) (s : State) : Answer :=
  .next (writeInstr Cpu.a (.zpX a) (.fixed 4) s)

/-- STX $nn,Y: 0x96, 4 cycles. (R205) -/
def execStxZpY (a : Byte) (s : State) : Answer :=
  .next (writeInstr Cpu.x (.zpY a) (.fixed 4) s)

/-- TYA: 0x98, 2 cycles. (R210) -/
def execTya (s : State) : Answer :=
  .next (registerInstr effectTya (.fixed 2) s)

/-- STA $nnnn,Y: 0x99, 5 cycles. (R204) -/
def execStaAbsY (a : Word) (s : State) : Answer :=
  .next (writeInstr Cpu.a (.absY a) (.fixed 5) s)

/-- TXS: 0x9A, 2 cycles. (R212) -/
def execTxs (s : State) : Answer :=
  .next (registerInstr effectTxs (.fixed 2) s)

/-- STA $nnnn,X: 0x9D, 5 cycles. (R204) -/
def execStaAbsX (a : Word) (s : State) : Answer :=
  .next (writeInstr Cpu.a (.absX a) (.fixed 5) s)

/-- LDY #$nn: 0xA0, 2 cycles. (R203) -/
def execLdyImm (m : Byte) (s : State) : Answer :=
  .next (readInstr effectLdy (.imm m) (.fixed 2) s)

/-- LDA ($nn,X): 0xA1, 6 cycles. (R201) -/
def execLdaIzX (p : Byte) (s : State) : Answer :=
  .next (readInstr effectLda (.mem (.izX p)) (.fixed 6) s)

/-- LDX #$nn: 0xA2, 2 cycles. (R202) -/
def execLdxImm (m : Byte) (s : State) : Answer :=
  .next (readInstr effectLdx (.imm m) (.fixed 2) s)

/-- LDY $nn: 0xA4, 3 cycles. (R203) -/
def execLdyZp (a : Byte) (s : State) : Answer :=
  .next (readInstr effectLdy (.mem (.zp a)) (.fixed 3) s)

/-- LDA $nn: 0xA5, 3 cycles. (R201) -/
def execLdaZp (a : Byte) (s : State) : Answer :=
  .next (readInstr effectLda (.mem (.zp a)) (.fixed 3) s)

/-- LDX $nn: 0xA6, 3 cycles. (R202) -/
def execLdxZp (a : Byte) (s : State) : Answer :=
  .next (readInstr effectLdx (.mem (.zp a)) (.fixed 3) s)

/-- TAY: 0xA8, 2 cycles. (R208) -/
def execTay (s : State) : Answer :=
  .next (registerInstr effectTay (.fixed 2) s)

/-- LDA #$nn: 0xA9, 2 cycles. (R201) -/
def execLdaImm (m : Byte) (s : State) : Answer :=
  .next (readInstr effectLda (.imm m) (.fixed 2) s)

/-- TAX: 0xAA, 2 cycles. (R207) -/
def execTax (s : State) : Answer :=
  .next (registerInstr effectTax (.fixed 2) s)

/-- LDY $nnnn: 0xAC, 4 cycles. (R203) -/
def execLdyAbs (a : Word) (s : State) : Answer :=
  .next (readInstr effectLdy (.mem (.abs a)) (.fixed 4) s)

/-- LDA $nnnn: 0xAD, 4 cycles. (R201) -/
def execLdaAbs (a : Word) (s : State) : Answer :=
  .next (readInstr effectLda (.mem (.abs a)) (.fixed 4) s)

/-- LDX $nnnn: 0xAE, 4 cycles. (R202) -/
def execLdxAbs (a : Word) (s : State) : Answer :=
  .next (readInstr effectLdx (.mem (.abs a)) (.fixed 4) s)

/-- LDA ($nn),Y: 0xB1, 5 cycles, +1 if a page is crossed. (R201) -/
def execLdaIzY (p : Byte) (s : State) : Answer :=
  .next (readInstr effectLda (.mem (.izY p)) (.paged 5) s)

/-- LDY $nn,X: 0xB4, 4 cycles. (R203) -/
def execLdyZpX (a : Byte) (s : State) : Answer :=
  .next (readInstr effectLdy (.mem (.zpX a)) (.fixed 4) s)

/-- LDA $nn,X: 0xB5, 4 cycles. (R201) -/
def execLdaZpX (a : Byte) (s : State) : Answer :=
  .next (readInstr effectLda (.mem (.zpX a)) (.fixed 4) s)

/-- LDX $nn,Y: 0xB6, 4 cycles. (R202) -/
def execLdxZpY (a : Byte) (s : State) : Answer :=
  .next (readInstr effectLdx (.mem (.zpY a)) (.fixed 4) s)

/-- LDA $nnnn,Y: 0xB9, 4 cycles, +1 if a page is crossed. (R201) -/
def execLdaAbsY (a : Word) (s : State) : Answer :=
  .next (readInstr effectLda (.mem (.absY a)) (.paged 4) s)

/-- TSX: 0xBA, 2 cycles. (R211) -/
def execTsx (s : State) : Answer :=
  .next (registerInstr effectTsx (.fixed 2) s)

/-- LDY $nnnn,X: 0xBC, 4 cycles, +1 if a page is crossed. (R203) -/
def execLdyAbsX (a : Word) (s : State) : Answer :=
  .next (readInstr effectLdy (.mem (.absX a)) (.paged 4) s)

/-- LDA $nnnn,X: 0xBD, 4 cycles, +1 if a page is crossed. (R201) -/
def execLdaAbsX (a : Word) (s : State) : Answer :=
  .next (readInstr effectLda (.mem (.absX a)) (.paged 4) s)

/-- LDX $nnnn,Y: 0xBE, 4 cycles, +1 if a page is crossed. (R202) -/
def execLdxAbsY (a : Word) (s : State) : Answer :=
  .next (readInstr effectLdx (.mem (.absY a)) (.paged 4) s)

end Sys2Proof.Machine
end

