-- ==== Sys2Proof/Machine/Shift.lean ====
section
/-! DEFINITION. The meanings of shift and rotate instructions (spec/44_shift_rotate.md R301 to R304): one definition
per constructor of `Instr`, over the shared shapes of Operands.lean. Each gets the state after the fetch
(30_encoding.md R152) and reports its cycles (R177). -/

namespace Sys2Proof.Machine

/-- ASL (R301). -/
def effectAsl (m : Byte) (c : Cpu) : Modified :=
  let s := shiftLeft m
  { r := s.r, cpu := { c with p := c.p.ofShifted s } }

/-- LSR (R302). -/
def effectLsr (m : Byte) (c : Cpu) : Modified :=
  let s := shiftRight m
  { r := s.r, cpu := { c with p := c.p.ofShifted s } }

/-- ROL (R303). -/
def effectRol (m : Byte) (c : Cpu) : Modified :=
  let s := rotateLeft m c.p.c
  { r := s.r, cpu := { c with p := c.p.ofShifted s } }

/-- ROR (R304). -/
def effectRor (m : Byte) (c : Cpu) : Modified :=
  let s := rotateRight m c.p.c
  { r := s.r, cpu := { c with p := c.p.ofShifted s } }

/-- ASL $nn: 0x06, 5 cycles. (R301) -/
def execAslZp (a : Byte) (s : State) : Answer :=
  .next (modifyInstr effectAsl (.zp a) (.fixed 5) s)

/-- ASL A: 0x0A, 2 cycles. (R301) -/
def execAslAcc (s : State) : Answer :=
  .next (modifyAcc effectAsl (.fixed 2) s)

/-- ASL $nnnn: 0x0E, 6 cycles. (R301) -/
def execAslAbs (a : Word) (s : State) : Answer :=
  .next (modifyInstr effectAsl (.abs a) (.fixed 6) s)

/-- ASL $nn,X: 0x16, 6 cycles. (R301) -/
def execAslZpX (a : Byte) (s : State) : Answer :=
  .next (modifyInstr effectAsl (.zpX a) (.fixed 6) s)

/-- ASL $nnnn,X: 0x1E, 7 cycles. (R301) -/
def execAslAbsX (a : Word) (s : State) : Answer :=
  .next (modifyInstr effectAsl (.absX a) (.fixed 7) s)

/-- ROL $nn: 0x26, 5 cycles. (R303) -/
def execRolZp (a : Byte) (s : State) : Answer :=
  .next (modifyInstr effectRol (.zp a) (.fixed 5) s)

/-- ROL A: 0x2A, 2 cycles. (R303) -/
def execRolAcc (s : State) : Answer :=
  .next (modifyAcc effectRol (.fixed 2) s)

/-- ROL $nnnn: 0x2E, 6 cycles. (R303) -/
def execRolAbs (a : Word) (s : State) : Answer :=
  .next (modifyInstr effectRol (.abs a) (.fixed 6) s)

/-- ROL $nn,X: 0x36, 6 cycles. (R303) -/
def execRolZpX (a : Byte) (s : State) : Answer :=
  .next (modifyInstr effectRol (.zpX a) (.fixed 6) s)

/-- ROL $nnnn,X: 0x3E, 7 cycles. (R303) -/
def execRolAbsX (a : Word) (s : State) : Answer :=
  .next (modifyInstr effectRol (.absX a) (.fixed 7) s)

/-- LSR $nn: 0x46, 5 cycles. (R302) -/
def execLsrZp (a : Byte) (s : State) : Answer :=
  .next (modifyInstr effectLsr (.zp a) (.fixed 5) s)

/-- LSR A: 0x4A, 2 cycles. (R302) -/
def execLsrAcc (s : State) : Answer :=
  .next (modifyAcc effectLsr (.fixed 2) s)

/-- LSR $nnnn: 0x4E, 6 cycles. (R302) -/
def execLsrAbs (a : Word) (s : State) : Answer :=
  .next (modifyInstr effectLsr (.abs a) (.fixed 6) s)

/-- LSR $nn,X: 0x56, 6 cycles. (R302) -/
def execLsrZpX (a : Byte) (s : State) : Answer :=
  .next (modifyInstr effectLsr (.zpX a) (.fixed 6) s)

/-- LSR $nnnn,X: 0x5E, 7 cycles. (R302) -/
def execLsrAbsX (a : Word) (s : State) : Answer :=
  .next (modifyInstr effectLsr (.absX a) (.fixed 7) s)

/-- ROR $nn: 0x66, 5 cycles. (R304) -/
def execRorZp (a : Byte) (s : State) : Answer :=
  .next (modifyInstr effectRor (.zp a) (.fixed 5) s)

/-- ROR A: 0x6A, 2 cycles. (R304) -/
def execRorAcc (s : State) : Answer :=
  .next (modifyAcc effectRor (.fixed 2) s)

/-- ROR $nnnn: 0x6E, 6 cycles. (R304) -/
def execRorAbs (a : Word) (s : State) : Answer :=
  .next (modifyInstr effectRor (.abs a) (.fixed 6) s)

/-- ROR $nn,X: 0x76, 6 cycles. (R304) -/
def execRorZpX (a : Byte) (s : State) : Answer :=
  .next (modifyInstr effectRor (.zpX a) (.fixed 6) s)

/-- ROR $nnnn,X: 0x7E, 7 cycles. (R304) -/
def execRorAbsX (a : Word) (s : State) : Answer :=
  .next (modifyInstr effectRor (.absX a) (.fixed 7) s)

end Sys2Proof.Machine
end

