-- ==== Sys2Proof/Machine/Stack.lean ====
section
/-! DEFINITION. The meanings of the stack instructions (spec/42_stack.md R231 to R234): one definition
per constructor of `Instr`, over the shared shapes of Operands.lean. Each gets the state after the fetch
(30_encoding.md R152) and reports its cycles (R177). -/

namespace Sys2Proof.Machine

/-- PHP: 0x08, 3 cycles. The pushed byte has bits 5 and 4 set. (R232) -/
def execPhp (s : State) : Answer :=
  .next ((push (s.cpu.p.toByte true) s).charge 3)

/-- PLP: 0x28, 4 cycles. (R234) -/
def execPlp (s : State) : Answer :=
  .next <|
    let r := pull s
    (r.2.setP (Status.ofByte r.1)).charge 4

/-- PHA: 0x48, 3 cycles. (R231) -/
def execPha (s : State) : Answer :=
  .next ((push s.cpu.a s).charge 3)

/-- PLA: 0x68, 4 cycles. (R233) -/
def execPla (s : State) : Answer :=
  .next <|
    let r := pull s
    (r.2.mapCpu fun c => c.loadA r.1).charge 4

end Sys2Proof.Machine
end

