-- ==== Sys2Proof/Machine/Unofficial.lean ====
section
/-! DEFINITION. The meanings of the undocumented opcodes (spec/47_unofficial.md R390 to R414): one definition
per constructor of `Instr`, over the shared shapes of Operands.lean. Each gets the state after the fetch
(30_encoding.md R152) and reports its cycles (R177). -/

namespace Sys2Proof.Machine

/-- JAM: `cpu.halted <- true` (R392). -/
def effectJam (c : Cpu) : Cpu := { c with halted := true }

/-- `*NOP`: the operand value is discarded (R393). -/
def effectNop (_m : Byte) (c : Cpu) : Cpu := c

/-- SLO: shift left, then OR into A; N and Z describe A (R394). -/
def effectSlo (m : Byte) (c : Cpu) : Modified :=
  let s := shiftLeft m
  { r := s.r, cpu := (c.setC s.c).loadA (c.a ||| s.r) }

/-- RLA: rotate left, then AND into A (R395). -/
def effectRla (m : Byte) (c : Cpu) : Modified :=
  let s := rotateLeft m c.p.c
  { r := s.r, cpu := (c.setC s.c).loadA (c.a &&& s.r) }

/-- SRE: shift right, then exclusive or into A (R396). -/
def effectSre (m : Byte) (c : Cpu) : Modified :=
  let s := shiftRight m
  { r := s.r, cpu := (c.setC s.c).loadA (c.a ^^^ s.r) }

/-- RRA: rotate right, then add with the bit rotated out as carry in (R397). -/
def effectRra (m : Byte) (c : Cpu) : Modified :=
  let s := rotateRight m c.p.c
  { r := s.r, cpu := c.addA s.r s.c }

/-- DCP: decrement, then compare with A (R400). -/
def effectDcp (m : Byte) (c : Cpu) : Modified := { r := m - 1, cpu := { c with p := c.p.compare c.a (m - 1) } }

/-- ISC: increment, then subtract with borrow (R401). -/
def effectIsc (m : Byte) (c : Cpu) : Modified := { r := m + 1, cpu := c.addA ((m + 1) ^^^ 0xFF) c.p.c }

/-- LAX: `A <- M; X <- M; setNZ(M)` (R399). -/
def effectLax (m : Byte) (c : Cpu) : Cpu := { c with a := m, x := m, p := c.p.setNZ m }

/-- ANC: AND into A, then `P.C <- A[7]` (R402). -/
def effectAnc (m : Byte) (c : Cpu) : Cpu := (c.loadA (c.a &&& m)).setC (bit (c.a &&& m) 7)

/-- ALR: AND, then logical shift right (R403). -/
def effectAlr (m : Byte) (c : Cpu) : Cpu :=
  let s := shiftRight (c.a &&& m)
  { c with a := s.r, p := c.p.ofShifted s }

/-- ARR: AND, then rotate right; C from bit 6, V from bits 6 and 5 of the result (R404). -/
def effectArr (m : Byte) (c : Cpu) : Cpu :=
  let r := (rotateRight (c.a &&& m) c.p.c).r
  { c with a := r, p := { c.p.setNZ r with c := bit r 6, v := bit r 6 != bit r 5 } }

/-- SBX: `t <- A & X; P.C <- (t >= M); X <- t - M; setNZ(X)`; V stays (R405). -/
def effectSbx (m : Byte) (c : Cpu) : Cpu :=
  let t := c.a &&& c.x
  (c.loadX (t - m)).setC (decide (m.toNat ≤ t.toNat))

/-- `*SBC`: as SBC immediate (R406). -/
def effectSbcEB (m : Byte) (c : Cpu) : Cpu := c.addA (m ^^^ 0xFF) c.p.c

/-- ANE: `A <- (A | ANE_MAGIC) & X & M; setNZ(A)` (R407). -/
def effectAne (m : Byte) (c : Cpu) : Cpu := c.loadA ((c.a ||| Config.aneMagic) &&& c.x &&& m)

/-- LXA: `r <- (A | LXA_MAGIC) & M; A <- r; X <- r; setNZ(r)` (R408). -/
def effectLxa (m : Byte) (c : Cpu) : Cpu :=
  let r := (c.a ||| Config.lxaMagic) &&& m
  { c with a := r, x := r, p := c.p.setNZ r }

/-- LAS: `r <- M & S; A <- r; X <- r; S <- r; setNZ(r)` (R413). -/
def effectLas (m : Byte) (c : Cpu) : Cpu :=
  let r := m &&& c.sp
  { c with a := r, x := r, sp := r, p := c.p.setNZ r }

/-- TAS's first action: `S <- A & X` (R412). -/
def effectTas (c : Cpu) : Cpu := { c with sp := c.a &&& c.x }

/-- *JAM: 0x02, 0x12, 0x22, 0x32, 0x42, 0x52, 0x62, 0x72, 0x92, 0xB2, 0xD2, 0xF2, 2 cycles. (R392) -/
def execJam (s : State) : Answer :=
  .next (registerInstr effectJam (.fixed 2) s)

/-- *SLO ($nn,X): 0x03, 8 cycles. (R394) -/
def execSloIzX (p : Byte) (s : State) : Answer :=
  .next (modifyInstr effectSlo (.izX p) (.fixed 8) s)

/-- *NOP $nn: 0x04, 0x44, 0x64, 3 cycles. (R393) -/
def execNopZp (a : Byte) (s : State) : Answer :=
  .next (readInstr effectNop (.mem (.zp a)) (.fixed 3) s)

/-- *SLO $nn: 0x07, 5 cycles. (R394) -/
def execSloZp (a : Byte) (s : State) : Answer :=
  .next (modifyInstr effectSlo (.zp a) (.fixed 5) s)

/-- *ANC #$nn: 0x0B, 0x2B, 2 cycles. (R402) -/
def execAncImm (m : Byte) (s : State) : Answer :=
  .next (readInstr effectAnc (.imm m) (.fixed 2) s)

/-- *NOP $nnnn: 0x0C, 4 cycles. (R393) -/
def execNopAbs (a : Word) (s : State) : Answer :=
  .next (readInstr effectNop (.mem (.abs a)) (.fixed 4) s)

/-- *SLO $nnnn: 0x0F, 6 cycles. (R394) -/
def execSloAbs (a : Word) (s : State) : Answer :=
  .next (modifyInstr effectSlo (.abs a) (.fixed 6) s)

/-- *SLO ($nn),Y: 0x13, 8 cycles. (R394) -/
def execSloIzY (p : Byte) (s : State) : Answer :=
  .next (modifyInstr effectSlo (.izY p) (.fixed 8) s)

/-- *NOP $nn,X: 0x14, 0x34, 0x54, 0x74, 0xD4, 0xF4, 4 cycles. (R393) -/
def execNopZpX (a : Byte) (s : State) : Answer :=
  .next (readInstr effectNop (.mem (.zpX a)) (.fixed 4) s)

/-- *SLO $nn,X: 0x17, 6 cycles. (R394) -/
def execSloZpX (a : Byte) (s : State) : Answer :=
  .next (modifyInstr effectSlo (.zpX a) (.fixed 6) s)

/-- *NOP: 0x1A, 0x3A, 0x5A, 0x7A, 0xDA, 0xFA, 2 cycles. (R393) -/
def execNopImp (s : State) : Answer :=
  .next (registerInstr id (.fixed 2) s)

/-- *SLO $nnnn,Y: 0x1B, 7 cycles. (R394) -/
def execSloAbsY (a : Word) (s : State) : Answer :=
  .next (modifyInstr effectSlo (.absY a) (.fixed 7) s)

/-- *NOP $nnnn,X: 0x1C, 0x3C, 0x5C, 0x7C, 0xDC, 0xFC, 4 cycles, +1 if a page is crossed. (R393) -/
def execNopAbsX (a : Word) (s : State) : Answer :=
  .next (readInstr effectNop (.mem (.absX a)) (.paged 4) s)

/-- *SLO $nnnn,X: 0x1F, 7 cycles. (R394) -/
def execSloAbsX (a : Word) (s : State) : Answer :=
  .next (modifyInstr effectSlo (.absX a) (.fixed 7) s)

/-- *RLA ($nn,X): 0x23, 8 cycles. (R395) -/
def execRlaIzX (p : Byte) (s : State) : Answer :=
  .next (modifyInstr effectRla (.izX p) (.fixed 8) s)

/-- *RLA $nn: 0x27, 5 cycles. (R395) -/
def execRlaZp (a : Byte) (s : State) : Answer :=
  .next (modifyInstr effectRla (.zp a) (.fixed 5) s)

/-- *RLA $nnnn: 0x2F, 6 cycles. (R395) -/
def execRlaAbs (a : Word) (s : State) : Answer :=
  .next (modifyInstr effectRla (.abs a) (.fixed 6) s)

/-- *RLA ($nn),Y: 0x33, 8 cycles. (R395) -/
def execRlaIzY (p : Byte) (s : State) : Answer :=
  .next (modifyInstr effectRla (.izY p) (.fixed 8) s)

/-- *RLA $nn,X: 0x37, 6 cycles. (R395) -/
def execRlaZpX (a : Byte) (s : State) : Answer :=
  .next (modifyInstr effectRla (.zpX a) (.fixed 6) s)

/-- *RLA $nnnn,Y: 0x3B, 7 cycles. (R395) -/
def execRlaAbsY (a : Word) (s : State) : Answer :=
  .next (modifyInstr effectRla (.absY a) (.fixed 7) s)

/-- *RLA $nnnn,X: 0x3F, 7 cycles. (R395) -/
def execRlaAbsX (a : Word) (s : State) : Answer :=
  .next (modifyInstr effectRla (.absX a) (.fixed 7) s)

/-- *SRE ($nn,X): 0x43, 8 cycles. (R396) -/
def execSreIzX (p : Byte) (s : State) : Answer :=
  .next (modifyInstr effectSre (.izX p) (.fixed 8) s)

/-- *SRE $nn: 0x47, 5 cycles. (R396) -/
def execSreZp (a : Byte) (s : State) : Answer :=
  .next (modifyInstr effectSre (.zp a) (.fixed 5) s)

/-- *ALR #$nn: 0x4B, 2 cycles. (R403) -/
def execAlrImm (m : Byte) (s : State) : Answer :=
  .next (readInstr effectAlr (.imm m) (.fixed 2) s)

/-- *SRE $nnnn: 0x4F, 6 cycles. (R396) -/
def execSreAbs (a : Word) (s : State) : Answer :=
  .next (modifyInstr effectSre (.abs a) (.fixed 6) s)

/-- *SRE ($nn),Y: 0x53, 8 cycles. (R396) -/
def execSreIzY (p : Byte) (s : State) : Answer :=
  .next (modifyInstr effectSre (.izY p) (.fixed 8) s)

/-- *SRE $nn,X: 0x57, 6 cycles. (R396) -/
def execSreZpX (a : Byte) (s : State) : Answer :=
  .next (modifyInstr effectSre (.zpX a) (.fixed 6) s)

/-- *SRE $nnnn,Y: 0x5B, 7 cycles. (R396) -/
def execSreAbsY (a : Word) (s : State) : Answer :=
  .next (modifyInstr effectSre (.absY a) (.fixed 7) s)

/-- *SRE $nnnn,X: 0x5F, 7 cycles. (R396) -/
def execSreAbsX (a : Word) (s : State) : Answer :=
  .next (modifyInstr effectSre (.absX a) (.fixed 7) s)

/-- *RRA ($nn,X): 0x63, 8 cycles. (R397) -/
def execRraIzX (p : Byte) (s : State) : Answer :=
  .next (modifyInstr effectRra (.izX p) (.fixed 8) s)

/-- *RRA $nn: 0x67, 5 cycles. (R397) -/
def execRraZp (a : Byte) (s : State) : Answer :=
  .next (modifyInstr effectRra (.zp a) (.fixed 5) s)

/-- *ARR #$nn: 0x6B, 2 cycles. (R404) -/
def execArrImm (m : Byte) (s : State) : Answer :=
  .next (readInstr effectArr (.imm m) (.fixed 2) s)

/-- *RRA $nnnn: 0x6F, 6 cycles. (R397) -/
def execRraAbs (a : Word) (s : State) : Answer :=
  .next (modifyInstr effectRra (.abs a) (.fixed 6) s)

/-- *RRA ($nn),Y: 0x73, 8 cycles. (R397) -/
def execRraIzY (p : Byte) (s : State) : Answer :=
  .next (modifyInstr effectRra (.izY p) (.fixed 8) s)

/-- *RRA $nn,X: 0x77, 6 cycles. (R397) -/
def execRraZpX (a : Byte) (s : State) : Answer :=
  .next (modifyInstr effectRra (.zpX a) (.fixed 6) s)

/-- *RRA $nnnn,Y: 0x7B, 7 cycles. (R397) -/
def execRraAbsY (a : Word) (s : State) : Answer :=
  .next (modifyInstr effectRra (.absY a) (.fixed 7) s)

/-- *RRA $nnnn,X: 0x7F, 7 cycles. (R397) -/
def execRraAbsX (a : Word) (s : State) : Answer :=
  .next (modifyInstr effectRra (.absX a) (.fixed 7) s)

/-- *NOP #$nn: 0x80, 0x82, 0x89, 0xC2, 0xE2, 2 cycles. (R393) -/
def execNopImm (m : Byte) (s : State) : Answer :=
  .next (readInstr effectNop (.imm m) (.fixed 2) s)

/-- *SAX ($nn,X): 0x83, 6 cycles. (R398) -/
def execSaxIzX (p : Byte) (s : State) : Answer :=
  .next (writeInstr (fun c => c.a &&& c.x) (.izX p) (.fixed 6) s)

/-- *SAX $nn: 0x87, 3 cycles. (R398) -/
def execSaxZp (a : Byte) (s : State) : Answer :=
  .next (writeInstr (fun c => c.a &&& c.x) (.zp a) (.fixed 3) s)

/-- *ANE #$nn: 0x8B, 2 cycles. (R407) -/
def execAneImm (m : Byte) (s : State) : Answer :=
  .next (readInstr effectAne (.imm m) (.fixed 2) s)

/-- *SAX $nnnn: 0x8F, 4 cycles. (R398) -/
def execSaxAbs (a : Word) (s : State) : Answer :=
  .next (writeInstr (fun c => c.a &&& c.x) (.abs a) (.fixed 4) s)

/-- *SHA ($nn),Y: 0x93, 6 cycles. (R409) -/
def execShaIzY (p : Byte) (s : State) : Answer :=
  .next (shStore id (fun h c => c.a &&& c.x &&& h) (.izY p) (.fixed 6) s)

/-- *SAX $nn,Y: 0x97, 4 cycles. (R398) -/
def execSaxZpY (a : Byte) (s : State) : Answer :=
  .next (writeInstr (fun c => c.a &&& c.x) (.zpY a) (.fixed 4) s)

/-- *TAS $nnnn,Y: 0x9B, 5 cycles. (R412) -/
def execTasAbsY (a : Word) (s : State) : Answer :=
  .next (shStore effectTas (fun h c => c.sp &&& h) (.absY a) (.fixed 5) s)

/-- *SHY $nnnn,X: 0x9C, 5 cycles. (R410) -/
def execShyAbsX (a : Word) (s : State) : Answer :=
  .next (shStore id (fun h c => c.y &&& h) (.absX a) (.fixed 5) s)

/-- *SHX $nnnn,Y: 0x9E, 5 cycles. (R411) -/
def execShxAbsY (a : Word) (s : State) : Answer :=
  .next (shStore id (fun h c => c.x &&& h) (.absY a) (.fixed 5) s)

/-- *SHA $nnnn,Y: 0x9F, 5 cycles. (R409) -/
def execShaAbsY (a : Word) (s : State) : Answer :=
  .next (shStore id (fun h c => c.a &&& c.x &&& h) (.absY a) (.fixed 5) s)

/-- *LAX ($nn,X): 0xA3, 6 cycles. (R399) -/
def execLaxIzX (p : Byte) (s : State) : Answer :=
  .next (readInstr effectLax (.mem (.izX p)) (.fixed 6) s)

/-- *LAX $nn: 0xA7, 3 cycles. (R399) -/
def execLaxZp (a : Byte) (s : State) : Answer :=
  .next (readInstr effectLax (.mem (.zp a)) (.fixed 3) s)

/-- *LXA #$nn: 0xAB, 2 cycles. (R408) -/
def execLxaImm (m : Byte) (s : State) : Answer :=
  .next (readInstr effectLxa (.imm m) (.fixed 2) s)

/-- *LAX $nnnn: 0xAF, 4 cycles. (R399) -/
def execLaxAbs (a : Word) (s : State) : Answer :=
  .next (readInstr effectLax (.mem (.abs a)) (.fixed 4) s)

/-- *LAX ($nn),Y: 0xB3, 5 cycles, +1 if a page is crossed. (R399) -/
def execLaxIzY (p : Byte) (s : State) : Answer :=
  .next (readInstr effectLax (.mem (.izY p)) (.paged 5) s)

/-- *LAX $nn,Y: 0xB7, 4 cycles. (R399) -/
def execLaxZpY (a : Byte) (s : State) : Answer :=
  .next (readInstr effectLax (.mem (.zpY a)) (.fixed 4) s)

/-- *LAS $nnnn,Y: 0xBB, 4 cycles, +1 if a page is crossed. (R413) -/
def execLasAbsY (a : Word) (s : State) : Answer :=
  .next (readInstr effectLas (.mem (.absY a)) (.paged 4) s)

/-- *LAX $nnnn,Y: 0xBF, 4 cycles, +1 if a page is crossed. (R399) -/
def execLaxAbsY (a : Word) (s : State) : Answer :=
  .next (readInstr effectLax (.mem (.absY a)) (.paged 4) s)

/-- *DCP ($nn,X): 0xC3, 8 cycles. (R400) -/
def execDcpIzX (p : Byte) (s : State) : Answer :=
  .next (modifyInstr effectDcp (.izX p) (.fixed 8) s)

/-- *DCP $nn: 0xC7, 5 cycles. (R400) -/
def execDcpZp (a : Byte) (s : State) : Answer :=
  .next (modifyInstr effectDcp (.zp a) (.fixed 5) s)

/-- *SBX #$nn: 0xCB, 2 cycles. (R405) -/
def execSbxImm (m : Byte) (s : State) : Answer :=
  .next (readInstr effectSbx (.imm m) (.fixed 2) s)

/-- *DCP $nnnn: 0xCF, 6 cycles. (R400) -/
def execDcpAbs (a : Word) (s : State) : Answer :=
  .next (modifyInstr effectDcp (.abs a) (.fixed 6) s)

/-- *DCP ($nn),Y: 0xD3, 8 cycles. (R400) -/
def execDcpIzY (p : Byte) (s : State) : Answer :=
  .next (modifyInstr effectDcp (.izY p) (.fixed 8) s)

/-- *DCP $nn,X: 0xD7, 6 cycles. (R400) -/
def execDcpZpX (a : Byte) (s : State) : Answer :=
  .next (modifyInstr effectDcp (.zpX a) (.fixed 6) s)

/-- *DCP $nnnn,Y: 0xDB, 7 cycles. (R400) -/
def execDcpAbsY (a : Word) (s : State) : Answer :=
  .next (modifyInstr effectDcp (.absY a) (.fixed 7) s)

/-- *DCP $nnnn,X: 0xDF, 7 cycles. (R400) -/
def execDcpAbsX (a : Word) (s : State) : Answer :=
  .next (modifyInstr effectDcp (.absX a) (.fixed 7) s)

/-- *ISC ($nn,X): 0xE3, 8 cycles. (R401) -/
def execIscIzX (p : Byte) (s : State) : Answer :=
  .next (modifyInstr effectIsc (.izX p) (.fixed 8) s)

/-- *ISC $nn: 0xE7, 5 cycles. (R401) -/
def execIscZp (a : Byte) (s : State) : Answer :=
  .next (modifyInstr effectIsc (.zp a) (.fixed 5) s)

/-- *SBC #$nn: 0xEB, 2 cycles. (R406) -/
def execSbcImmEB (m : Byte) (s : State) : Answer :=
  .next (readInstr effectSbcEB (.imm m) (.fixed 2) s)

/-- *ISC $nnnn: 0xEF, 6 cycles. (R401) -/
def execIscAbs (a : Word) (s : State) : Answer :=
  .next (modifyInstr effectIsc (.abs a) (.fixed 6) s)

/-- *ISC ($nn),Y: 0xF3, 8 cycles. (R401) -/
def execIscIzY (p : Byte) (s : State) : Answer :=
  .next (modifyInstr effectIsc (.izY p) (.fixed 8) s)

/-- *ISC $nn,X: 0xF7, 6 cycles. (R401) -/
def execIscZpX (a : Byte) (s : State) : Answer :=
  .next (modifyInstr effectIsc (.zpX a) (.fixed 6) s)

/-- *ISC $nnnn,Y: 0xFB, 7 cycles. (R401) -/
def execIscAbsY (a : Word) (s : State) : Answer :=
  .next (modifyInstr effectIsc (.absY a) (.fixed 7) s)

/-- *ISC $nnnn,X: 0xFF, 7 cycles. (R401) -/
def execIscAbsX (a : Word) (s : State) : Answer :=
  .next (modifyInstr effectIsc (.absX a) (.fixed 7) s)

end Sys2Proof.Machine
end

