-- ==== Sys2Proof/Machine/Fetch.lean ====
section
/-! DEFINITION. Fetching (spec/30_encoding.md R150 to R152): the opcode, then the operand bytes it calls for, each an
ordinary bus read that advances PC. And placing an instruction where the next step fetches (log entry 3). -/

namespace Sys2Proof.Machine

/-- `MemRead(PC, 1); PC <- PC + 1` (R151). -/
def fetchByte (s : State) : Byte × State :=
  let r := cpuRead s.cpu.pc s
  (r.1, r.2.setPc (s.cpu.pc + 1))

/-- Read `n` bytes at PC, in increasing address order (R151). -/
def fetchMany : Nat → State → List Byte × State
  | 0, s => ([], s)
  | n + 1, s =>
    let r := fetchByte s
    let rest := fetchMany n r.2
    (r.1 :: rest.1, rest.2)

/-- The bytes of the instruction at PC, and the state after the fetch (R151). -/
def fetchBytes (s : State) : List Byte × State :=
  let op := fetchByte s
  let rest := fetchMany ((formOf op.1).length - 1) op.2
  (op.1 :: rest.1, rest.2)

/-- The instruction at PC, and the state after the fetch: PC past its last byte (R151, R152). -/
def fetchInstr (s : State) : Instr × State :=
  let op := fetchByte s
  match formOf op.1 with
  | .bare i => (i, op.2)
  | .byte f =>
    let b := fetchByte op.2
    (f b.1, b.2)
  | .addr f =>
    let lo := fetchByte op.2
    let hi := fetchByte lo.2
    (f (word hi.1 lo.1), hi.2)

/-- Whether an address is backed by memory that can hold an instruction: RAM, PRG RAM or PRG ROM. -/
def holdsCode (a : Word) : Bool := decide (a < 0x2000) || decide (0x6000 ≤ a)

/-- Put a byte into the memory that backs an address, PRG ROM included: not a bus write, but the loading of an image
or of a memory from outside. -/
def plantByte (a : Word) (b : Byte) (s : State) : State :=
  if a < 0x2000 then { s with ram := s.ram.write (a.toNat % 0x800) b }
  else if a < 0x6000 then s
  else if a < 0x8000 then
    { s with cart := { s.cart with prgRam := s.cart.prgRam.write (a.toNat - 0x6000) b } }
  else { s with cart := { s.cart with prgRom := s.cart.prgRom.write (s.cart.prgIndex a) b } }

/-- Where an instruction of up to three bytes can be placed for the next fetch: at PC when memory backs it there, else
at 0x0200. -/
def plantAddr (pc : Word) : Word :=
  if holdsCode pc && holdsCode (pc + 1) && holdsCode (pc + 2) then pc else 0x0200

/-- Let the next step fetch: no owed dots, no pending NMI or IRQ, no reset request, not halted. -/
def readyToFetch (s : State) : State :=
  { s with
    cpu := { s.cpu with halted := false, irqLine := false }
    sync := { s.sync with debt := 0, nmiPending := false }
    host := { s.host with resetRequested := false } }

/-- Place three instruction bytes where the next step fetches. -/
def plantBytes (b0 b1 b2 : Byte) (s : State) : State :=
  let a := plantAddr s.cpu.pc
  (plantByte (a + 2) b2 (plantByte (a + 1) b1 (plantByte a b0 (readyToFetch s)))).setPc a

end Sys2Proof.Machine
end

