-- ==== Sys2Proof/Machine/PpuBackground.lean ====
section
/-! DEFINITION. The background pipeline (spec/50_ppu.md R451, R510 to R516). -/

namespace Sys2Proof.Machine

/-- `rendering`: background or sprites enabled (R451). -/
def Ppu.rendering (p : Ppu) : Bool := bit p.mask 3 || bit p.mask 4

/-- `render_line`: the visible lines and the pre-render line (R451). -/
def Ppu.renderLine (p : Ppu) : Bool := decide (p.scanline ≤ 239) || p.scanline == 261

/-- `bg_table` (R451). -/
def Ppu.bgTable (p : Ppu) : BitVec 14 := if bit p.ctrl 4 then 0x1000 else 0x0000

/-- `attribute_bits()`: the palette of the 16x16 quadrant of the tile at `v` (R511). -/
def Ppu.attributeBits (p : Ppu) (c : Cart) : BitVec 2 :=
  let v : BitVec 14 := p.v.setWidth 14
  let a := p.busRead c (0x23C0 ||| (v &&& 0x0C00) ||| ((v >>> 4) &&& 0x38) ||| ((v >>> 2) &&& 0x07))
  let sh := (((p.v >>> 4) &&& 4) ||| (p.v &&& 2)).toNat
  (a >>> sh).setWidth 2

/-- `inc_x()` on a VRAM address (R512). -/
def incX (v : BitVec 15) : BitVec 15 :=
  if field v 0 5 = 31 then setField (setField v 0 0#5) 10 (~~~field v 10 1) else v + 1

/-- `inc_y()` on a VRAM address (R512). -/
def incY (v : BitVec 15) : BitVec 15 :=
  if (field v 12 3).toNat < 7 then v + 0x1000
  else
    let v1 := setField v 12 0#3
    let y := field v1 5 5
    if y = 29 then setField (setField v1 11 (~~~field v1 11 1)) 5 0#5
    else if y = 31 then setField v1 5 0#5
    else setField v1 5 (y + 1)

/-- `v[10] <- t[10]; v[4:0] <- t[4:0]` (R510, dot 257). -/
def copyHorizontal (v t : BitVec 15) : BitVec 15 :=
  setField (setField v 10 (field t 10 1)) 0 (field t 0 5)

/-- `v[14:11] <- t[14:11]; v[9:5] <- t[9:5]` (R510, dots 280-304 of the pre-render line). -/
def copyVertical (v t : BitVec 15) : BitVec 15 :=
  setField (setField v 11 (field t 11 4)) 5 (field t 5 5)

/-- `shift_bg()` (R513). -/
def Background.shift (b : Background) : Background :=
  { b with sLo := b.sLo <<< 1, sHi := b.sHi <<< 1, aLo := b.aLo <<< 1, aHi := b.aHi <<< 1 }

/-- The low byte of an attribute shift register: all ones or all zeros. -/
def attributeFill (b : Bool) : Byte := if b then 0xFF else 0x00

/-- `load_bg()` (R514). -/
def Background.load (b : Background) : Background :=
  { b with
    sLo := setField b.sLo 0 b.lo
    sHi := setField b.sHi 0 b.hi
    aLo := setField b.aLo 0 (attributeFill (bit b.attr 0))
    aHi := setField b.aHi 0 (attributeFill (bit b.attr 1)) }

/-- The address of the low pattern plane of the fetched tile's row (R510). -/
def Ppu.bgPatternAddr (p : Ppu) : BitVec 14 :=
  p.bgTable + 16 * p.bg.nt.setWidth 14 + (field p.v 12 3).setWidth 14

/-- The fetch of the nametable byte, after loading the shift registers (R510, case 0). -/
def Ppu.fetchNametable (p : Ppu) (c : Cart) : Ppu :=
  { p with bg := { p.bg.load with nt := p.busRead c (0x2000 ||| (p.v.setWidth 14 &&& 0x0FFF)) } }

/-- The fetch of the attribute bits (R510, case 2). -/
def Ppu.fetchAttribute (p : Ppu) (c : Cart) : Ppu := { p with bg := { p.bg with attr := p.attributeBits c } }

/-- The fetch of the low pattern plane (R510, case 4). -/
def Ppu.fetchLow (p : Ppu) (c : Cart) : Ppu := { p with bg := { p.bg with lo := p.busRead c p.bgPatternAddr } }

/-- The fetch of the high pattern plane (R510, case 6). -/
def Ppu.fetchHigh (p : Ppu) (c : Cart) : Ppu :=
  { p with bg := { p.bg with hi := p.busRead c (p.bgPatternAddr + 8) } }

/-- The shift and the fetch schedule of a fetching dot (R510). -/
def Ppu.bgFetchDot (p : Ppu) (c : Cart) : Ppu :=
  let p1 := { p with bg := p.bg.shift }
  match (p.dot - 1) % 8 with
  | 0 => p1.fetchNametable c
  | 2 => p1.fetchAttribute c
  | 4 => p1.fetchLow c
  | 6 => p1.fetchHigh c
  | 7 => { p1 with v := incX p1.v }
  | _ => p1

/-- Whether a dot fetches: 2..257 and 321..337 (R510). -/
def fetchingDot (d : Nat) : Bool := (decide (2 ≤ d) && decide (d ≤ 257)) || (decide (321 ≤ d) && decide (d ≤ 337))

/-- The scroll updates that follow the fetches: Y increment at dot 256, horizontal copy at 257, vertical copy at
280-304 of the pre-render line (R510). -/
def Ppu.bgScrollDot (p : Ppu) : Ppu :=
  if p.dot = 256 then { p with v := incY p.v }
  else if p.dot = 257 then { p with bg := p.bg.load, v := copyHorizontal p.v p.t }
  else if p.scanline = 261 ∧ 280 ≤ p.dot ∧ p.dot ≤ 304 then { p with v := copyVertical p.v p.t }
  else p

/-- `background_dot()` (R510). -/
def Ppu.backgroundDot (p : Ppu) (c : Cart) : Ppu :=
  let p1 := if fetchingDot p.dot then p.bgFetchDot c else p
  p1.bgScrollDot

/-- A background pixel: its two pattern bits and its palette (R516). -/
structure BgPixel where
  pix : BitVec 2
  pal : BitVec 2
deriving DecidableEq, Repr

/-- The background pixel of column `x` (R516). -/
def Ppu.bgPixel (p : Ppu) (x : Nat) : BgPixel :=
  if bit p.mask 3 && (bit p.mask 1 || decide (8 ≤ x)) then
    let k := 15 - p.x.toNat
    { pix := BitVec.ofBool (bit p.bg.sHi k) ++ BitVec.ofBool (bit p.bg.sLo k)
      pal := BitVec.ofBool (bit p.bg.aHi k) ++ BitVec.ofBool (bit p.bg.aLo k) }
  else { pix := 0, pal := 0 }

end Sys2Proof.Machine
end

