-- ==== Sys2Proof/Machine/PpuSprites.lean ====
section
/-! DEFINITION. Sprites (spec/50_ppu.md R451, R520 to R523): evaluation and pattern fetches for the next scanline at
dot 257, and the sprite pixel. -/

namespace Sys2Proof.Machine

/-- `spr_h`: 8 or 16 rows (R451). -/
def Ppu.spriteHeight (p : Ppu) : Nat := if bit p.ctrl 5 then 16 else 8

/-- `spr_table` (R451). -/
def Ppu.spriteTable (p : Ppu) : Nat := if bit p.ctrl 3 then 0x1000 else 0x0000

/-- A sprite in range of a scanline: its number 0..63 and its row. -/
structure InRange where
  n : Nat
  row : Nat
deriving DecidableEq, Repr

/-- Byte `k` of sprite `n` in OAM (R521). -/
def Ppu.oamByte (p : Ppu) (n k : Nat) : Byte := p.oam.read (4 * n + k)

/-- Sprite `n` on scanline `s`, when `0 <= s - y < spr_h` (R521). -/
def Ppu.spriteInRange (p : Ppu) (s n : Nat) : Option InRange :=
  let y := (p.oamByte n 0).toNat
  if y ≤ s ∧ s - y < p.spriteHeight then some { n := n, row := s - y } else none

/-- Every sprite in range of scanline `s`, in OAM order (R521). -/
def Ppu.spritesInRange (p : Ppu) (s : Nat) : List InRange := (List.range 64).filterMap (p.spriteInRange s)

/-- The pattern address of a sprite's row, in both sprite sizes, flipped vertically by attribute bit 7 (R522). -/
def Ppu.spritePatternAddr (p : Ppu) (e : InRange) : Nat :=
  let tile := p.oamByte e.n 1
  let flip := bit (p.oamByte e.n 2) 7
  if bit p.ctrl 5 then
    let r := if flip then 15 - e.row else e.row
    let table := if bit tile 0 then 0x1000 else 0x0000
    let t := (tile &&& 0xFE).toNat + (if 8 ≤ r then 1 else 0)
    table + 16 * t + r % 8
  else
    let r := if flip then 7 - e.row else e.row
    p.spriteTable + 16 * tile.toNat + r

/-- A pattern plane, bit-reversed by the horizontal flip (R522). -/
def flipPlane (flip : Bool) (b : Byte) : Byte := if flip then b.reverse else b

/-- The slot a sprite in range fills (R522). -/
def Ppu.fetchSprite (p : Ppu) (c : Cart) (e : InRange) : Slot :=
  let attr := p.oamByte e.n 2
  let addr : BitVec 14 := BitVec.ofNat 14 (p.spritePatternAddr e)
  { x := p.oamByte e.n 3
    attr := attr
    lo := flipPlane (bit attr 6) (p.busRead c addr)
    hi := flipPlane (bit attr 6) (p.busRead c (addr + 8)) }

/-- `evaluate(s)` and `fetch_sprites()` (R521, R522): the first eight sprites in range fill the slots, a ninth sets the
overflow flag. Slots beyond the count keep what they held (log entry 17). -/
def Ppu.evaluateSprites (p : Ppu) (c : Cart) : Ppu :=
  let found := p.spritesInRange p.scanline
  let chosen := found.take 8
  { p with
    spr :=
      { count := chosen.length
        slots := chosen.map (p.fetchSprite c) ++ p.spr.slots.drop chosen.length
        hasZero := chosen.any fun e => e.n == 0 }
    spriteOverflow := p.spriteOverflow || decide (8 < found.length) }

/-- No sprite on the next line (R500, R520). -/
def Ppu.clearSprites (p : Ppu) : Ppu := { p with spr := { p.spr with count := 0, hasZero := false } }

/-- `sprite_dot()` (R520). -/
def Ppu.spriteDot (p : Ppu) (c : Cart) : Ppu :=
  if p.dot = 257 then
    let p1 := { p with oamAddr := 0x00 }
    if p1.scanline = 261 then p1.clearSprites else p1.evaluateSprites c
  else p

/-- A sprite pixel: pattern bits (0 when there is none), palette 4..7, behind the background, from sprite 0 (R523). -/
structure SpritePixel where
  pix : BitVec 2
  pal : BitVec 3
  behind : Bool
  zero : Bool
deriving DecidableEq, Repr

/-- The pattern bits a slot shows in column `x`, 0 outside its eight columns (R523). -/
def Slot.pixel (sl : Slot) (x : Nat) : BitVec 2 :=
  if sl.x.toNat ≤ x ∧ x - sl.x.toNat ≤ 7 then
    let k := 7 - (x - sl.x.toNat)
    BitVec.ofBool (bit sl.hi k) ++ BitVec.ofBool (bit sl.lo k)
  else 0

/-- The first opaque slot in column `x`, `i` being the number of the first slot of the list (R523). -/
def firstOpaque (hasZero : Bool) (x : Nat) : Nat → List Slot → Option SpritePixel
  | _, [] => none
  | i, sl :: rest =>
    if sl.pixel x = 0 then firstOpaque hasZero x (i + 1) rest
    else
      some { pix := sl.pixel x, pal := 4 + (field sl.attr 0 2).setWidth 3, behind := bit sl.attr 5
             zero := i == 0 && hasZero }

/-- No sprite pixel. -/
def SpritePixel.none : SpritePixel := { pix := 0, pal := 4, behind := false, zero := false }

/-- The sprite pixel of column `x` (R523). -/
def Ppu.spritePixel (p : Ppu) (x : Nat) : SpritePixel :=
  if bit p.mask 4 && (bit p.mask 2 || decide (8 ≤ x)) then
    (firstOpaque p.spr.hasZero x 0 (p.spr.slots.take p.spr.count)).getD SpritePixel.none
  else SpritePixel.none

end Sys2Proof.Machine
end

