-- ==== Sys2Proof/Machine/PpuStep.lean ====
section
/-! DEFINITION. The PPU's dot state machine (spec/50_ppu.md R500 to R503) and the pixel output (R524, R530). The PPU
reads the cartridge and changes itself only. -/

namespace Sys2Proof.Machine

/-- The status bitmask of `step()`: bit 0 NMI, bit 1 FRAME_READY (R500). -/
structure PpuStatus where
  nmi : Bool
  frameReady : Bool
deriving DecidableEq, Repr

/-- The palette address of the visible pixel (R530). -/
def pixelAddr (bg : BgPixel) (sp : SpritePixel) : BitVec 14 :=
  let bgAddr : BitVec 14 := 0x3F00 + 4 * bg.pal.setWidth 14 + bg.pix.setWidth 14
  let sprAddr : BitVec 14 := 0x3F00 + 4 * sp.pal.setWidth 14 + sp.pix.setWidth 14
  if bg.pix = 0 ∧ sp.pix = 0 then 0x3F00
  else if bg.pix = 0 then sprAddr
  else if sp.pix = 0 then bgAddr
  else if sp.behind then bgAddr
  else sprAddr

/-- The sprite-zero hit condition in column `x` (R524). -/
def Ppu.zeroHit (p : Ppu) (bg : BgPixel) (sp : SpritePixel) (x : Nat) : Bool :=
  sp.zero && decide (bg.pix ≠ 0) && decide (sp.pix ≠ 0) && bit p.mask 3 && bit p.mask 4 && decide (x ≠ 255)

/-- The colour of a palette address, greyscale applied (R530). -/
def Ppu.colour (p : Ppu) (c : Cart) (pa : BitVec 14) : BitVec 6 :=
  (p.busRead c pa).setWidth 6 &&& (if bit p.mask 0 then 0x30 else 0x3F)

/-- `output_pixel(x)` (R530): `{mask[7:5], colour}` goes to row `scanline`, column `x`. -/
def Ppu.outputPixel (p : Ppu) (c : Cart) (x : Nat) : Ppu :=
  let bg := p.bgPixel x
  let sp := p.spritePixel x
  let value : BitVec 9 := field p.mask 5 3 ++ p.colour c (pixelAddr bg sp)
  { p with
    sprite0Hit := p.sprite0Hit || p.zeroHit bg sp x
    frameBuffer := p.frameBuffer.write (256 * p.scanline + x) value }

/-- `vblank_start()` (R501). -/
def Ppu.vblankStart (p : Ppu) : Ppu := { p with vblank := true, nmiRequest := p.nmiRequest || bit p.ctrl 7 }

/-- `vblank_end()` (R502). -/
def Ppu.vblankEnd (p : Ppu) : Ppu := { p with vblank := false, sprite0Hit := false, spriteOverflow := false }

/-- Whether the odd-frame rule skips the dot after the current one (R503, D19). -/
def Ppu.skipsDot (p : Ppu) : Bool :=
  p.scanline == 261 && p.dot == 339 && p.rendering && p.frame % 2 == 1 && Config.oddFrameSkip

/-- `advance()` (R503): the next position, and whether the frame is ready. A frame the skip shortens is counted like
any other (log entry 9). -/
def Ppu.advance (p : Ppu) : Ppu × Bool :=
  if p.skipsDot then ({ p with dot := 0, scanline := 0, frame := p.frame + 1 }, true)
  else if p.dot + 1 = 341 then
    if p.scanline + 1 = 262 then ({ p with dot := 0, scanline := 0, frame := p.frame + 1 }, true)
    else ({ p with dot := 0, scanline := p.scanline + 1 }, false)
  else ({ p with dot := p.dot + 1 }, false)

/-- The background and sprite actions of the current dot (R500): with rendering off, only the sprite line is cleared at
dot 257 of a render line. -/
def Ppu.renderDot (p : Ppu) (c : Cart) : Ppu :=
  if p.rendering && p.renderLine then (p.backgroundDot c).spriteDot c
  else if p.renderLine && p.dot == 257 then p.clearSprites
  else p

/-- The pixel output of the current dot (R500): dots 1-256 of the visible lines. -/
def Ppu.pixelDot (p : Ppu) (c : Cart) : Ppu :=
  if p.scanline ≤ 239 ∧ 1 ≤ p.dot ∧ p.dot ≤ 256 then p.outputPixel c (p.dot - 1) else p

/-- The VBlank boundaries (R500). -/
def Ppu.vblankDot (p : Ppu) : Ppu :=
  if p.scanline = 241 ∧ p.dot = 1 then p.vblankStart
  else if p.scanline = 261 ∧ p.dot = 1 then p.vblankEnd
  else p

/-- The actions of the current dot, in the order of R500, before the position advances. -/
def Ppu.dotActions (p : Ppu) (c : Cart) : Ppu := ((p.renderDot c).pixelDot c).vblankDot

/-- `step()`: one dot (R500). The NMI request is reported once and withdrawn. -/
def Ppu.step (p : Ppu) (c : Cart) : Ppu × PpuStatus :=
  let r := (p.dotActions c).advance
  ({ r.1 with nmiRequest := false }, { nmi := r.1.nmiRequest, frameReady := r.2 })

end Sys2Proof.Machine
end

