-- ==== Sys2Proof/Machine/Reset.lean ====
section
/-! DEFINITION. Power-on and machine reset (spec/70_reset_and_hazards.md R700 to R702). -/

namespace Sys2Proof.Machine

/-- The machine before the power-on `cpu.reset()`: every block at its power-on value (R700). -/
def State.unreset (init : PowerOnContents) (cart : Cart) : State :=
  { cpu := Cpu.powerOn
    ram := init.ram
    ppu := Ppu.powerOn init.oam init.palette init.vram
    cart := cart
    ctl1 := { cursor := 0, strobe := false }
    ctl2 := { cursor := 0, strobe := false }
    sync := { debt := 0, nmiPending := false, inFrame := false, reported := 0, dots := 0 }
    host := { draws := 0, resetRequested := false, presented := 0, lastFrame := [] } }

/-- `power_on(img)` after `load` (R700). -/
def State.powerOn (init : PowerOnContents) (cart : Cart) : State := cpuReset (State.unreset init cart)

/-- `power_on(img)` (R700): on a `LoadError` no machine exists. -/
def powerOnImage (init : PowerOnContents) (img : List Byte) : Except LoadError State :=
  match load init img with
  | .error e => .error e
  | .ok cart => .ok (State.powerOn init cart)

/-- The machine-reset column of 10_state.md R52 (D41). -/
def Ppu.machineReset (p : Ppu) : Ppu :=
  { p with
    ctrl := 0x00
    mask := 0x00
    t := 0
    x := 0
    w := false
    readBuffer := 0x00
    nmiRequest := false }

/-- `machine_reset()` (R701), which leaves the IRQ line false (R702). The request is consumed, and the two counters of
R638 start again (log entries 11 and 13). -/
def machineReset (s : State) : State :=
  cpuReset
    { s with
      cpu := { s.cpu with irqLine := false }
      ppu := s.ppu.machineReset
      sync := { s.sync with debt := 0, nmiPending := false, reported := 0, dots := 0 }
      host := { s.host with resetRequested := false } }

end Sys2Proof.Machine
end

