-- ==== Sys2Proof/Machine/Synchronizer.lean ====
section
/-! DEFINITION. The Synchronizer (spec/53_synchronizer.md R630 to R640): draining the owed dots, choosing the CPU
action, and handing over a finished frame. One step of the model is one iteration of `run_frame`'s loop (log
entry 10). -/

namespace Sys2Proof.Machine

/-- The Synchronizer after a PPU step: one dot paid, an NMI recorded (R632). -/
def Sync.afterDot (y : Sync) (nmi : Bool) : Sync :=
  { y with debt := y.debt - 1, dots := y.dots + 1, nmiPending := y.nmiPending || nmi }

/-- One PPU step, and whether it raised frame-ready (R632). -/
def ppuDot (s : State) : State × Bool :=
  let r := s.ppu.step s.cart
  ({ s with ppu := r.1, sync := s.sync.afterDot r.2.nmi }, r.2.frameReady)

/-- At most `n` PPU steps, stopping when frame-ready is raised (R632, R635). -/
def drainLoop : Nat → State → State × Bool
  | 0, s => (s, false)
  | n + 1, s =>
    let r := ppuDot s
    if r.2 then (r.1, true) else drainLoop n r.1

/-- `drain()`: step the PPU the dots it is owed; true when frame-ready was raised (R632). -/
def drain (s : State) : State × Bool := drainLoop s.sync.debt s

/-- `present(ppu.frame_buffer)` and the return from `run_frame` (R636). -/
def present (s : State) : State :=
  { s with
    sync := { s.sync with inFrame := false }
    host := { s.host with presented := s.host.presented + 1, lastFrame := s.ppu.frameBuffer } }

/-- The colour the sink shows at row `y`, column `x` of the frame it was handed last (R531, R636). -/
def displayed (s : State) (y x : Nat) : BitVec 32 := Config.systemPalette (s.host.lastFrame.read (256 * y + x))

/-- `cpu.step()` (30_encoding.md R151): a halted CPU reports 1 cycle and does nothing else. -/
def cpuStep (s : State) : Answer :=
  if s.cpu.halted then .next (s.charge 1)
  else
    let r := fetchInstr s
    exec r.1 r.2

/-- Consume the pending NMI (R633). -/
def clearNmi (s : State) : State := { s with sync := { s.sync with nmiPending := false } }

/-- The CPU action of one iteration: a pending NMI, else an accepted IRQ, else one instruction (R632,
60_exceptions.md R668). -/
def cpuAction (s : State) : Answer :=
  if s.sync.nmiPending then .next (nmi (clearNmi s))
  else if s.cpu.irqLine && !s.cpu.p.i then .next (irq s)
  else cpuStep s

/-- Owe the PPU three dots for each cycle the action reported, which is what it added to `cpu.cycles` (R632, R634,
10_state.md R48). -/
def owe (before after : State) : State :=
  let c := after.cpu.cycles - before.cpu.cycles
  { after with
    sync :=
      { after.sync with
        debt := after.sync.debt + 3 * c
        reported := after.sync.reported + c
        inFrame := true } }

/-- After a drain: hand over the frame when it is ready. -/
def finish (r : State × Bool) : State := if r.2 then present r.1 else r.1

/-- The rest of the iteration after the CPU action: owe the dots, step them, hand over a finished frame (R632). -/
def afterAction (before after : State) : State := finish (drain (owe before after))

/-- Whether the host's reset is taken now: between two frames (70_reset_and_hazards.md R701). -/
def takesReset (s : State) : Bool := s.host.resetRequested && !s.sync.inFrame

end Sys2Proof.Machine
end

