-- ==== Sys2Proof/Machine/Step.lean ====
section
/-! DEFINITION. One step of the machine: one iteration of `run_frame`'s loop (spec/53_synchronizer.md R632), with the
drain of the dots left over from the previous frame before it, or the host's machine reset between two frames. And
the placing of an instruction where the next step fetches it. -/

namespace Sys2Proof.Machine

/-- One step (log entry 10). Within a frame no dots are owed at its start, so the opening drain does nothing then. -/
def step (s : State) : Host.Outcome State Fault Refusal :=
  if takesReset s then .next (machineReset s)
  else
    let opened := drain s
    if opened.2 then .next (present opened.1)
    else
      match cpuAction opened.1 with
      | .next after => .next (afterAction opened.1 after)
      | .fault r => .fault r
      | .refused r => .refused r

/-- `s` with an instruction, its bits `w` numbered as the opcode table numbers them, where the next step fetches it
(log entry 3). -/
def State.withFetchWord (s : State) (nbits w : Nat) : State :=
  let bits : BitVec 24 := BitVec.ofNat 24 (w % 2 ^ nbits)
  plantBytes (bits.extractLsb' 0 8) (bits.extractLsb' 8 8) (bits.extractLsb' 16 8) s

end Sys2Proof.Machine
end

