-- ==== Sys2Proof/Machine/Timing.lean ====
section
/-! DEFINITION. The cycles column of spec/30_encoding.md R177 as one table in the layout of the opcode map, and the list
of opcodes with a page penalty (R169). The meanings hold their counts themselves; the statements compare them with
this table. -/

namespace Sys2Proof.Machine

/-- `BASE[op]` (R151, R177), row = high nibble, column = low nibble. -/
def baseTable : List (List Nat) :=
  [[7, 6, 2, 8, 3, 3, 5, 5, 3, 2, 2, 2, 4, 4, 6, 6],
   [2, 5, 2, 8, 4, 4, 6, 6, 2, 4, 2, 7, 4, 4, 7, 7],
   [6, 6, 2, 8, 3, 3, 5, 5, 4, 2, 2, 2, 4, 4, 6, 6],
   [2, 5, 2, 8, 4, 4, 6, 6, 2, 4, 2, 7, 4, 4, 7, 7],
   [6, 6, 2, 8, 3, 3, 5, 5, 3, 2, 2, 2, 3, 4, 6, 6],
   [2, 5, 2, 8, 4, 4, 6, 6, 2, 4, 2, 7, 4, 4, 7, 7],
   [6, 6, 2, 8, 3, 3, 5, 5, 4, 2, 2, 2, 5, 4, 6, 6],
   [2, 5, 2, 8, 4, 4, 6, 6, 2, 4, 2, 7, 4, 4, 7, 7],
   [2, 6, 2, 6, 3, 3, 3, 3, 2, 2, 2, 2, 4, 4, 4, 4],
   [2, 6, 2, 6, 4, 4, 4, 4, 2, 5, 2, 5, 5, 5, 5, 5],
   [2, 6, 2, 6, 3, 3, 3, 3, 2, 2, 2, 2, 4, 4, 4, 4],
   [2, 5, 2, 5, 4, 4, 4, 4, 2, 4, 2, 4, 4, 4, 4, 4],
   [2, 6, 2, 8, 3, 3, 5, 5, 2, 2, 2, 2, 4, 4, 6, 6],
   [2, 5, 2, 8, 4, 4, 6, 6, 2, 4, 2, 7, 4, 4, 7, 7],
   [2, 6, 2, 8, 3, 3, 5, 5, 2, 2, 2, 2, 4, 4, 6, 6],
   [2, 5, 2, 8, 4, 4, 6, 6, 2, 4, 2, 7, 4, 4, 7, 7]]

/-- The opcodes whose entry says "+1 if page crossed" (R177). -/
def pagedOpcodes : List Byte :=
  [0x11, 0x19, 0x1C, 0x1D, 0x31, 0x39, 0x3C, 0x3D, 0x51, 0x59, 0x5C, 0x5D,
   0x71, 0x79, 0x7C, 0x7D, 0xB1, 0xB3, 0xB9, 0xBB, 0xBC, 0xBD, 0xBE, 0xBF,
   0xD1, 0xD9, 0xDC, 0xDD, 0xF1, 0xF9, 0xFC, 0xFD]

/-- `BASE[op]` (R151). -/
def baseCycles (op : Byte) : Nat := (baseTable.getD (op.toNat / 16) []).getD (op.toNat % 16) 0

/-- Whether a page cross adds a cycle (R169). -/
def pagePenalty (op : Byte) : Bool := pagedOpcodes.contains op

/-- The cost that R177 gives an instruction. -/
def rowCost (i : Instr) : Cost := { base := baseCycles i.opcode, page := pagePenalty i.opcode }

/-- The operand an instruction that reads takes, as the syntax names it. -/
def Source.operand : Source → Operand
  | .imm m => .imm m
  | .mem p => .mem p

/-- The mnemonic an opcode's form stands for. -/
def formMnemonic : Form → Mnemonic
  | .bare i => i.mnemonic
  | .byte f => (f 0).mnemonic
  | .addr f => (f 0).mnemonic

/-- The 256 opcodes, in rising order. -/
def allOpcodes : List Byte := (List.range 256).map (BitVec.ofNat 8)

/-- The opcodes of a mnemonic, in rising order (R176). -/
def opcodesOf (mn : Mnemonic) : List Byte := allOpcodes.filter fun op => decide (formMnemonic (formOf op) = mn)

/-- Whether R177 lists an opcode as official. -/
def documentedOpcode (op : Byte) : Bool :=
  match formOf op with
  | .bare i => i.documented
  | .byte f => (f 0).documented
  | .addr f => (f 0).documented

/-- The addressing mode of an opcode's form. -/
def formMode : Form → Mode
  | .bare i => i.operand.mode
  | .byte f => (f 0).operand.mode
  | .addr f => (f 0).operand.mode

/-- An opcode with its addressing mode. -/
def encodingOf (op : Byte) : Byte × Mode := (op, formMode (formOf op))

/-- The encodings of a mnemonic: its opcodes in rising order, each with its addressing mode (R176, R177). -/
def encodingsOf (mn : Mnemonic) : List (Byte × Mode) := (opcodesOf mn).map encodingOf

/-- The encodings of a mnemonic that R177 lists as official. -/
def documentedEncodingsOf (mn : Mnemonic) : List (Byte × Mode) :=
  ((opcodesOf mn).filter documentedOpcode).map encodingOf

/-- The encodings of a mnemonic that R177 lists as undocumented. -/
def undocumentedEncodingsOf (mn : Mnemonic) : List (Byte × Mode) :=
  ((opcodesOf mn).filter fun op => !documentedOpcode op).map encodingOf

end Sys2Proof.Machine
end

