-- ==== Sys2Proof/Machine/Rules.lean ====
section
/-! DEFINITION. What the statements are written in: the spec's rules as formulas over numbers, apart from the functions
the meanings call; the state after an instruction of each access class (30_encoding.md R175); the addresses an
instruction stores to; and runs of reads and of dots. No meaning calls anything here. -/

namespace Sys2Proof.Machine

/-! Flags and results by their numbers. -/

/-- `setNZ(v)` by the number of `v` (00_scope.md R15). -/
def nzOf (p : Status) (v : Byte) : Status := { p with z := decide (v.toNat = 0), n := decide (128 ≤ v.toNat) }

/-- Whether a signed result does not fit eight bits. -/
def outsideByte (x : Int) : Bool := decide (x < -128 ∨ 127 < x)

/-- The sum of ADD8 (43_arith_logic.md R250). -/
def sumOf (a m : Byte) (cin : Bool) : Nat := a.toNat + m.toNat + bitNat cin

/-- `A <- A + M + cin` with C, V, N and Z (R251): C when the sum passes 255, V when the signed sum does not fit. -/
def addedTo (c : Cpu) (m : Byte) (cin : Bool) : Cpu :=
  let r : Byte := BitVec.ofNat 8 (sumOf c.a m cin)
  { c with
    a := r
    p :=
      { nzOf c.p r with
        c := decide (256 ≤ sumOf c.a m cin)
        v := outsideByte (c.a.toInt + m.toInt + bitNat cin) } }

/-- `A <- A - M - (1 - C)` with C, V, N and Z (R252): C when no borrow is needed, V when the signed difference does not
fit. -/
def subtractedFrom (c : Cpu) (m : Byte) : Cpu :=
  let borrow := 1 - bitNat c.p.c
  let r : Byte := BitVec.ofNat 8 (c.a.toNat + 512 - m.toNat - borrow)
  { c with
    a := r
    p :=
      { nzOf c.p r with
        c := decide (m.toNat + borrow ≤ c.a.toNat)
        v := outsideByte (c.a.toInt - m.toInt - borrow) } }

/-- `COMPARE(r, m)` by the numbers (R256). -/
def comparedTo (p : Status) (r m : Byte) : Status :=
  { p with
    c := decide (m.toNat ≤ r.toNat)
    z := decide (r.toNat = m.toNat)
    n := decide (128 ≤ (r.toNat + 256 - m.toNat) % 256) }

/-- `A <- v; setNZ(A)`. -/
def withA (c : Cpu) (v : Byte) : Cpu := { c with a := v, p := nzOf c.p v }

/-- `X <- v; setNZ(X)`. -/
def withX (c : Cpu) (v : Byte) : Cpu := { c with x := v, p := nzOf c.p v }

/-- `Y <- v; setNZ(Y)`. -/
def withY (c : Cpu) (v : Byte) : Cpu := { c with y := v, p := nzOf c.p v }

/-- N and Z from `v`, nothing else. -/
def withNZ (c : Cpu) (v : Byte) : Cpu := { c with p := nzOf c.p v }

/-- `P.C <- b`. -/
def withC (c : Cpu) (b : Bool) : Cpu := { c with p := { c.p with c := b } }

/-- `{ p with c := b }`, then N and Z from `v`: the flags of a shift. -/
def shiftedFlags (c : Cpu) (v : Byte) (b : Bool) : Cpu := { c with p := { nzOf c.p v with c := b } }

/-- `(v << 1) & 0xFF`, with `c0` coming in at bit 0 (44_shift_rotate.md R301, R303). -/
def doubled (v : Byte) (c0 : Bool) : Byte := BitVec.ofNat 8 (2 * v.toNat + bitNat c0)

/-- `v >> 1`, with `c0` coming in at bit 7 (R302, R304). -/
def halved (v : Byte) (c0 : Bool) : Byte := BitVec.ofNat 8 (v.toNat / 2 + 128 * bitNat c0)

/-- `v[7]`. -/
def topBit (v : Byte) : Bool := decide (128 ≤ v.toNat)

/-- `v[0]`. -/
def lowBit (v : Byte) : Bool := decide (v.toNat % 2 = 1)

/-- The condition of a branch (45_control.md R322 to R329). -/
def branchCondition : Mnemonic → Option (Status → Bool)
  | .bcc => some fun p => !p.c
  | .bcs => some fun p => p.c
  | .beq => some fun p => p.z
  | .bne => some fun p => !p.z
  | .bmi => some fun p => p.n
  | .bpl => some fun p => !p.n
  | .bvc => some fun p => !p.v
  | .bvs => some fun p => p.v
  | _ => none

/-- The stored flag a flag instruction writes (46_flags.md R371 to R377). -/
def flagWrite : Mnemonic → Option (Status → Status)
  | .clc => some fun p => { p with c := false }
  | .sec => some fun p => { p with c := true }
  | .cli => some fun p => { p with i := false }
  | .sei => some fun p => { p with i := true }
  | .cld => some fun p => { p with d := false }
  | .sed => some fun p => { p with d := true }
  | .clv => some fun p => { p with v := false }
  | _ => none

/-- The result and the carry out of a shift or rotate of `v` with carry in `c0` (44_shift_rotate.md R301 to R304). -/
def shiftOf : Mnemonic → Option (Byte → Bool → Byte × Bool)
  | .asl => some fun v _ => (doubled v false, topBit v)
  | .lsr => some fun v _ => (halved v false, lowBit v)
  | .rol => some fun v c0 => (doubled v c0, topBit v)
  | .ror => some fun v c0 => (halved v c0, lowBit v)
  | _ => none

/-! The state after an instruction, by access class (30_encoding.md R175). `s` is the state the instruction starts from
and `c` the registers it leaves, the cycle counter apart. -/

/-- After an instruction that makes no access. -/
def registerNext (i : Instr) (s : State) (c : Cpu) : State :=
  { s with cpu := { c with cycles := s.cpu.cycles + baseCycles i.opcode } }

/-- After an instruction that read its operand: the state the bus left, base cycles and the page penalty (R169). -/
def readNext (i : Instr) (s : State) (r : Loaded) (c : Cpu) : State :=
  { r.s with cpu := { c with cycles := s.cpu.cycles + (rowCost i).cycles r.crossed } }

/-- The stall of an instruction that wrote `ea` (20_memory.md R141). -/
def stallCycles (ea : Word) (base cycles : Nat) : Nat :=
  if ea.toNat = 0x4014 then 513 + (cycles + base) % 2 else 0

/-- After an instruction that wrote `v` to `ea`, `s1` being the state just before the write: base cycles and the DMA
stall, no page penalty (R169). -/
def writeNext (i : Instr) (s s1 : State) (ea : Word) (v : Byte) (c : Cpu) : State :=
  { cpuWrite ea v s1 with
    cpu :=
      { c with cycles := s.cpu.cycles + baseCycles i.opcode + stallCycles ea (baseCycles i.opcode) s.cpu.cycles } }

/-- After a read-modify-write instruction on `p`: one read of EA, `f` of the byte gives the byte written back and the
registers, one write of EA (R175). -/
def modifyNext (i : Instr) (p : Place) (s : State) (f : Byte → Byte × Cpu) : State :=
  let ea := (locate p s).1.ea
  let m := cpuRead ea s
  writeNext i s m.2 ea (f m.1).1 (f m.1).2

/-- The byte a high-byte store stores: `val & H`, `H = hi(base) + 1` (47_unofficial.md R414). -/
def highStoreValue (p : Place) (s : State) (val : Byte) : Byte :=
  val &&& BitVec.ofNat 8 ((locate p s).1.base.toNat / 256 + 1)

/-- Where a high-byte store writes: on a page cross the stored byte replaces the high byte of EA (R414). -/
def highStoreAddr (p : Place) (s : State) (val : Byte) : Word :=
  let l := (locate p s).1
  if l.crossed then BitVec.ofNat 16 (256 * (highStoreValue p s val).toNat + l.ea.toNat % 256) else l.ea

/-! What an instruction stores to. -/

/-- The `n` stack addresses from S down, wrapping within page 1 (10_state.md R34). -/
def stackSlots : Nat → Byte → List Word
  | 0, _ => []
  | n + 1, sp => BitVec.ofNat 16 (256 + sp.toNat) :: stackSlots n (sp - 1)

/-- The effective address of a memory operand, none for another operand. -/
def operandAddrs (o : Operand) (s : State) : List Word :=
  match o with
  | .mem p => [(locate p s).1.ea]
  | _ => []

/-- The address of a high-byte store. -/
def highStoreAddrs (o : Operand) (s : State) (val : Byte) : List Word :=
  match o with
  | .mem p => [highStoreAddr p s val]
  | _ => []

/-- The mnemonics whose memory forms write their effective address (R175). -/
def storesToEa : List Mnemonic :=
  [.sta, .stx, .sty, .sax, .inc, .dec, .asl, .lsr, .rol, .ror, .slo, .rla, .sre, .rra, .dcp, .isc]

/-- The addresses an instruction stores to, from the state it starts in: its operand's, the stack slots it pushes to,
or the substituted address of a high-byte store. -/
def storeAddrs (i : Instr) (s : State) : List Word :=
  if storesToEa.contains i.mnemonic then operandAddrs i.operand s
  else
    match i.mnemonic with
    | .pha => stackSlots 1 s.cpu.sp
    | .php => stackSlots 1 s.cpu.sp
    | .jsr => stackSlots 2 s.cpu.sp
    | .brk => stackSlots 3 s.cpu.sp
    | .sha => highStoreAddrs i.operand s (s.cpu.a &&& s.cpu.x)
    | .tas => highStoreAddrs i.operand s (s.cpu.a &&& s.cpu.x)
    | .shx => highStoreAddrs i.operand s s.cpu.x
    | .shy => highStoreAddrs i.operand s s.cpu.y
    | _ => []

/-- Whether two addresses reach one cell: the same address, or two folds of one RAM byte (20_memory.md R102). -/
def sameCell (a b : Word) : Bool :=
  a == b || (decide (a.toNat < 0x2000) && decide (b.toNat < 0x2000) && a.toNat % 0x800 == b.toNat % 0x800)

/-- Whether an address is outside the device windows 0x2000-0x401F. -/
def outsideDevices (a : Word) : Bool := decide (a.toNat < 0x2000) || decide (0x4020 ≤ a.toNat)

/-- The number an operand's bytes make, 0 without operand bytes (30_encoding.md R153). -/
def operandValue : Operand → Nat
  | .imp => 0
  | .acc => 0
  | .imm m => m.toNat
  | .mem (.zp b) => b.toNat
  | .mem (.zpX b) => b.toNat
  | .mem (.zpY b) => b.toNat
  | .mem (.abs a) => a.toNat
  | .mem (.absX a) => a.toNat
  | .mem (.absY a) => a.toNat
  | .mem (.izX b) => b.toNat
  | .mem (.izY b) => b.toNat
  | .ind p => p.toNat
  | .rel d => d.toNat

/-! Runs. -/

/-- `n` bus reads of one address: the bytes and the state after. -/
def readMany (a : Word) : Nat → State → List Byte × State
  | 0, s => ([], s)
  | n + 1, s =>
    let r := cpuRead a s
    let rest := readMany a n r.2
    (r.1 :: rest.1, rest.2)

/-- `n` dots of the PPU alone: the PPU after, and the numbers of the dots (counted from 1) that raised frame-ready. -/
def dots (c : Cart) : Nat → Ppu → Ppu × List Nat
  | 0, p => (p, [])
  | n + 1, p =>
    let before := dots c n p
    let r := before.1.step c
    (r.1, if r.2.frameReady then before.2 ++ [n + 1] else before.2)

end Sys2Proof.Machine
end

