-- ==== Sys2Proof/Safety.lean ====
section
/-! DEFINITION. What claims about the whole machine are stated in: the invariant of the state (canonical memories within
their sizes, positions and counters within the ranges spec/10_state.md gives them), the clock relation of
53_synchronizer.md R638, and a run that never stops. -/

namespace Sys2Proof.Machine

/-- A memory is in canonical form and within its size. -/
def Memory.ok {w : Nat} (m : Memory w) (size : Nat) : Bool := m.wf && m.below size

/-- The PPU's memories, positions and sprite line are within their ranges (10_state.md R53, R54, R56, R57). -/
def Ppu.inv (p : Ppu) : Bool :=
  Memory.ok p.oam 256 && Memory.ok p.palette 32 && Memory.ok p.ciram 2048 && Memory.ok p.frameBuffer 61440 &&
    decide (p.scanline ≤ 261) && decide (p.dot ≤ 340) && decide (p.spr.count ≤ 8) && p.spr.slots.length == 8

/-- The cartridge's memories have the sizes its bank counts give, and CHR RAM is one bank (R58, 51_cartridge.md
R552). -/
def Cart.inv (c : Cart) : Bool :=
  decide (1 ≤ c.prgBanks) && decide (1 ≤ c.chrBanks) && (!c.chrIsRam || c.chrBanks == 1) &&
    Memory.ok c.prgRom (16384 * c.prgBanks) && Memory.ok c.chr (8192 * c.chrBanks) &&
    Memory.ok c.prgRam 8192 && Memory.ok c.fsVram 2048

/-- The state's invariant: RAM, PPU and cartridge as above, both cursors at most 8 (R60). -/
def State.inv (s : State) : Bool :=
  Memory.ok s.ram 2048 && s.ppu.inv && s.cart.inv && decide (s.ctl1.cursor ≤ 8) && decide (s.ctl2.cursor ≤ 8)

/-- The clock relation: `ppu_steps + sync.debt = 3 * C` (53_synchronizer.md R638). -/
def State.clockExact (s : State) : Prop := s.sync.dots + s.sync.debt = 3 * s.sync.reported

/-- The largest cycle count one CPU action reports: an 8-cycle read-modify-write to 0x4014 in an odd cycle (30_encoding.md
R177, 20_memory.md R141; log entry 18). -/
def maxActionCycles : Nat := 8 + 514

/-- What is owed between two steps: nothing within a frame, less than one action's dots after a frame (R635). -/
def State.debtBounded (s : State) : Prop :=
  s.sync.debt ≤ 3 * maxActionCycles - 1 ∧ (s.sync.inFrame = true → s.sync.debt = 0)

/-- A run that never stops, of any length. -/
def SafeRun (s : State) : Prop := ∀ n : Nat, ∃ t : State, Sys2Proof.core.run n s = .next t

end Sys2Proof.Machine
end

