-- ==== Sys2Proof/WellFormed.lean ====
section
/-! DEFINITION. What a well-formed instruction is (30_encoding.md R150, R153, R170, R171), and the same check on raw
bytes. Every value of every operand byte is legal and every constructor has the length of its mode
(`EncodedLength`, Laws/PerInstr.lean), so the checks are: the opcode a shared constructor holds is one of its
rows', and raw bytes hold one opcode and exactly the operand bytes it calls for. -/

namespace Sys2Proof

/-- An instruction is well-formed when its opcode is one its constructor admits (R392, R393, R402); of every other
constructor there is one opcode, so each of its terms is well-formed. -/
def Instr.wellFormed (i : Instr) : Bool := i.opcodeAdmitted

/-- A byte sequence is one instruction exactly when it holds an opcode and the operand bytes that opcode calls for,
no fewer and no more (R150). -/
def codeWellFormed : List Byte → Bool
  | [] => false
  | op :: operands => (formOf op).length == operands.length + 1

end Sys2Proof
end

