-- ==== Sys2Proof/Certificates/Slice0/Obligations.lean ====
section
/-! DEFINITION. The statements for the provers, each formalising rules of spec/ or resting on its sections. The formulas
and the shapes of the states after an instruction stand in Machine/Rules.lean and Machine/Timing.lean, apart from
what the meanings call. Every statement about an instruction has the state AFTER its fetch as `s` (30_encoding.md
R152), so PC is already past it, and names the constructors it covers. -/

open Sys2Proof Sys2Proof.Machine

/-! Encoding. -/

/-- Decoding the encoding of a well-formed instruction, whatever bytes follow, gives the instruction back with those
bytes left (30_encoding.md R150, R153, R176, R177). -/
def Obligations.DecodeOfEncode : Prop :=
  ∀ (i : Instr) (rest : List Byte), i.wellFormed = true → decode (encode i ++ rest) = .ok (i, rest)

/-- The other direction: what decodes is well-formed and its encoding is the bytes consumed; a sequence is refused
exactly when it is empty or ends before the operand bytes its opcode calls for (R150, R153, R170: no opcode is
reserved). -/
def Obligations.EncodeOfDecode : Prop :=
  (∀ (bytes : List Byte) (i : Instr) (rest : List Byte),
      decode bytes = .ok (i, rest) → i.wellFormed = true ∧ bytes = encode i ++ rest) ∧
  decode [] = .error .noOpcode ∧
  (∀ (op : Byte) (operands : List Byte),
    if (formOf op).length ≤ operands.length + 1 then ∃ r, decode (op :: operands) = .ok r
    else decode (op :: operands) = .error (.operandMissing op))

/-- Words written out from the opcode list (30_encoding.md R177), one per family, decode to what they stand for. -/
def Obligations.WrittenOutWordsDecode : Prop :=
  decode [0xA9, 0x42] = .ok (.ldaImm 0x42, []) ∧
  decode [0x9D, 0xF0, 0x12] = .ok (.staAbsX 0x12F0, []) ∧
  decode [0x08, 0xEA] = .ok (.php, [0xEA]) ∧
  decode [0x71, 0x20] = .ok (.adcIzY 0x20, []) ∧
  decode [0x5E, 0xF0, 0x02] = .ok (.lsrAbsX 0x02F0, []) ∧
  decode [0x6C, 0xFF, 0x02] = .ok (.jmpInd 0x02FF, []) ∧
  decode [0xD0, 0xFE] = .ok (.bne 0xFE, []) ∧
  decode [0xF8] = .ok (.sed, []) ∧
  decode [0xB7, 0x10] = .ok (.laxZpY 0x10, []) ∧
  decode [0xEB, 0x10] = .ok (.sbcImmEB 0x10, []) ∧
  decode [0xDC, 0x34, 0x12] = .ok (.nopAbsX 0xDC 0x1234, []) ∧
  decode [0x92] = .ok (.jam 0x92, [])

/-! Fetching, stepping, addressing. -/

/-- A STEP RUNS THE DECODED INSTRUCTION (30_encoding.md R151, 53_synchronizer.md R632): with no reset, no owed dots, no
NMI, no accepted IRQ and no halt, the bytes fetched at PC are exactly one well-formed instruction, and `step` is
`exec` of it on the state after the fetch, then the dots it owes (`afterAction`: owe three dots a cycle, step them,
hand over a finished frame). -/
def Obligations.StepRunsFetchedInstruction : Prop :=
  ∀ s : State, takesReset s = false → s.sync.debt = 0 → s.sync.nmiPending = false →
    (s.cpu.irqLine && !s.cpu.p.i) = false → s.cpu.halted = false →
    ∃ (i : Instr) (s1 t : State),
      decode (fetchBytes s).1 = .ok (i, []) ∧ i.wellFormed = true ∧ (fetchBytes s).2 = s1 ∧
        fetchInstr s = (i, s1) ∧ exec i s1 = .next t ∧ step s = .next (afterAction s t)

/-- Fetching at any address outside the device windows (R151, R152, 20_memory.md R134): when the bytes that reads of
PC, PC + 1, … (modulo 65536) return are the encoding of a well-formed instruction, that instruction is fetched, PC
ends past its last byte, and nothing else changes. -/
def Obligations.FetchReadsMemoryAtPc : Prop :=
  ∀ (i : Instr) (s : State), i.wellFormed = true →
    (∀ (k : Nat) (b : Byte), (encode i)[k]? = some b →
      outsideDevices (s.cpu.pc + BitVec.ofNat 16 k) = true ∧ peek s (s.cpu.pc + BitVec.ofNat 16 k) = b) →
    fetchInstr s =
      (i, { s with cpu := { s.cpu with pc := s.cpu.pc + BitVec.ofNat 16 i.operand.mode.length } })

/-- The effective addresses of the eight data modes (R157 to R164): zero-page sums wrap in page 0, the pointer bytes
come from the zero page with wrapping, 16-bit sums wrap, and the page-cross flag compares high bytes. Computing an
address changes nothing. Only LDX, STX, LAX and SAX use zero page,Y. The operand of a decoded instruction is its one
operand byte, or its two with the low one first. -/
def Obligations.EffectiveAddresses : Prop :=
  (∀ (s : State) (p : Place), (locate p s).2 = s) ∧
  (∀ (s : State) (b : Byte),
    (locate (.zp b) s).1.ea.toNat = b.toNat ∧
    (locate (.zpX b) s).1.ea.toNat = (b.toNat + s.cpu.x.toNat) % 256 ∧
    (locate (.zpY b) s).1.ea.toNat = (b.toNat + s.cpu.y.toNat) % 256 ∧
    (locate (.zp b) s).1.crossed = false ∧ (locate (.zpX b) s).1.crossed = false ∧
    (locate (.zpY b) s).1.crossed = false) ∧
  (∀ (s : State) (a : Word),
    (locate (.abs a) s).1.ea = a ∧ (locate (.abs a) s).1.crossed = false) ∧
  (∀ (s : State) (a : Word),
    let l := (locate (.absX a) s).1
    l.base = a ∧ l.ea.toNat = (a.toNat + s.cpu.x.toNat) % 65536 ∧
      l.crossed = decide (a.toNat / 256 ≠ l.ea.toNat / 256)) ∧
  (∀ (s : State) (a : Word),
    let l := (locate (.absY a) s).1
    l.base = a ∧ l.ea.toNat = (a.toNat + s.cpu.y.toNat) % 65536 ∧
      l.crossed = decide (a.toNat / 256 ≠ l.ea.toNat / 256)) ∧
  (∀ (s : State) (b : Byte),
    let p := (b.toNat + s.cpu.x.toNat) % 256
    let l := (locate (.izX b) s).1
    l.ea.toNat = 256 * (s.ram.read ((p + 1) % 256)).toNat + (s.ram.read p).toNat ∧ l.crossed = false) ∧
  (∀ (s : State) (b : Byte),
    let l := (locate (.izY b) s).1
    l.base.toNat = 256 * (s.ram.read ((b.toNat + 1) % 256)).toNat + (s.ram.read b.toNat).toNat ∧
      l.ea.toNat = (l.base.toNat + s.cpu.y.toNat) % 65536 ∧
      l.crossed = decide (l.base.toNat / 256 ≠ l.ea.toNat / 256)) ∧
  (∀ i : Instr, i.operand.mode = .zpY → i.mnemonic ∈ [Mnemonic.ldx, .stx, .lax, .sax]) ∧
  (∀ (op b1 b2 : Byte) (i : Instr) (rest : List Byte),
    (decode (op :: b1 :: rest) = .ok (i, rest) → operandValue i.operand = b1.toNat) ∧
    (decode (op :: b1 :: b2 :: rest) = .ok (i, rest) → operandValue i.operand = 256 * b2.toNat + b1.toNat))

/-! Instructions. Each statement gives the whole next state, so what it does not name is unchanged. -/

/-- LDA, LDX, LDY (41_load_transfer.md R201 to R203): the operand, one bus read when it is in memory, goes to the
register, with N and Z; the cycles are the base count and the page penalty.
Covers: ldaIzX, ldaZp, ldaImm, ldaAbs, ldaIzY, ldaZpX, ldaAbsY, ldaAbsX, ldxImm, ldxZp, ldxAbs, ldxZpY, ldxAbsY,
ldyImm, ldyZp, ldyAbs, ldyZpX, ldyAbsX. -/
def Obligations.LoadsFillRegister : Prop :=
  encodingsOf .lda =
    [(0xA1, .izX), (0xA5, .zp), (0xA9, .imm), (0xAD, .abs), (0xB1, .izY), (0xB5, .zpX), (0xB9, .absY),
     (0xBD, .absX)] ∧
  encodingsOf .ldx = [(0xA2, .imm), (0xA6, .zp), (0xAE, .abs), (0xB6, .zpY), (0xBE, .absY)] ∧
  encodingsOf .ldy = [(0xA0, .imm), (0xA4, .zp), (0xAC, .abs), (0xB4, .zpX), (0xBC, .absX)] ∧
  (∀ (i : Instr) (s : State), i.mnemonic = .lda → ∃ src : Source, i.operand = src.operand ∧
    let r := loadSource src s
    exec i s = .next (readNext i s r (withA s.cpu r.m))) ∧
  (∀ (i : Instr) (s : State), i.mnemonic = .ldx → ∃ src : Source, i.operand = src.operand ∧
    let r := loadSource src s
    exec i s = .next (readNext i s r (withX s.cpu r.m))) ∧
  (∀ (i : Instr) (s : State), i.mnemonic = .ldy → ∃ src : Source, i.operand = src.operand ∧
    let r := loadSource src s
    exec i s = .next (readNext i s r (withY s.cpu r.m)))

/-- STA, STX, STY and SAX (R204 to R206, 47_unofficial.md R398): one bus write of the register (SAX: of `A & X`) to EA,
no read of it; no register and no flag changes; the cycles are fixed but for the DMA stall of a write to 0x4014.
Covers: staIzX, staZp, staAbs, staIzY, staZpX, staAbsY, staAbsX, stxZp, stxAbs, stxZpY, styZp, styAbs, styZpX, saxIzX,
saxZp, saxAbs, saxZpY. -/
def Obligations.StoresWriteRegister : Prop :=
  encodingsOf .sta =
    [(0x81, .izX), (0x85, .zp), (0x8D, .abs), (0x91, .izY), (0x95, .zpX), (0x99, .absY), (0x9D, .absX)] ∧
  encodingsOf .stx = [(0x86, .zp), (0x8E, .abs), (0x96, .zpY)] ∧
  encodingsOf .sty = [(0x84, .zp), (0x8C, .abs), (0x94, .zpX)] ∧
  encodingsOf .sax = [(0x83, .izX), (0x87, .zp), (0x8F, .abs), (0x97, .zpY)] ∧
  (∀ (i : Instr) (s : State), i.mnemonic = .sta → ∃ p : Place, i.operand = .mem p ∧
    exec i s = .next (writeNext i s s (locate p s).1.ea s.cpu.a s.cpu)) ∧
  (∀ (i : Instr) (s : State), i.mnemonic = .stx → ∃ p : Place, i.operand = .mem p ∧
    exec i s = .next (writeNext i s s (locate p s).1.ea s.cpu.x s.cpu)) ∧
  (∀ (i : Instr) (s : State), i.mnemonic = .sty → ∃ p : Place, i.operand = .mem p ∧
    exec i s = .next (writeNext i s s (locate p s).1.ea s.cpu.y s.cpu)) ∧
  (∀ (i : Instr) (s : State), i.mnemonic = .sax → ∃ p : Place, i.operand = .mem p ∧
    exec i s = .next (writeNext i s s (locate p s).1.ea (s.cpu.a &&& s.cpu.x) s.cpu))

/-- TAX, TAY, TXA, TYA, TSX with N and Z, TXS with no flag (R207 to R212).
Covers: tax, tay, txa, tya, tsx, txs. -/
def Obligations.TransfersCopyRegister : Prop :=
  encodingsOf .tax = [(0xAA, .imp)] ∧
  encodingsOf .tay = [(0xA8, .imp)] ∧
  encodingsOf .txa = [(0x8A, .imp)] ∧
  encodingsOf .tya = [(0x98, .imp)] ∧
  encodingsOf .tsx = [(0xBA, .imp)] ∧
  encodingsOf .txs = [(0x9A, .imp)] ∧
  (∀ s : State,
    exec .tax s = .next (registerNext .tax s (withX s.cpu s.cpu.a)) ∧
    exec .tay s = .next (registerNext .tay s (withY s.cpu s.cpu.a)) ∧
    exec .txa s = .next (registerNext .txa s (withA s.cpu s.cpu.x)) ∧
    exec .tya s = .next (registerNext .tya s (withA s.cpu s.cpu.y)) ∧
    exec .tsx s = .next (registerNext .tsx s (withX s.cpu s.cpu.sp)) ∧
    exec .txs s = .next (registerNext .txs s { s.cpu with sp := s.cpu.x }))

/-- PHA, PHP, PLA, PLP (42_stack.md R231 to R234): a push writes the RAM byte at 0x0100 + S and decrements S, a pull
increments S and reads it; PHP pushes `N V 1 1 D I Z C`, PLP loads the six stored flags and ignores bits 5 and 4.
Covers: pha, php, pla, plp. -/
def Obligations.StackInstructions : Prop :=
  encodingsOf .pha = [(0x48, .imp)] ∧
  encodingsOf .php = [(0x08, .imp)] ∧
  encodingsOf .pla = [(0x68, .imp)] ∧
  encodingsOf .plp = [(0x28, .imp)] ∧
  (∀ s : State,
    exec .pha s =
      .next
        { s with
          ram := s.ram.write (256 + s.cpu.sp.toNat) s.cpu.a
          cpu := { s.cpu with sp := s.cpu.sp - 1, cycles := s.cpu.cycles + 3 } } ∧
    (∃ v : Byte,
      v.toNat =
        128 * bitNat s.cpu.p.n + 64 * bitNat s.cpu.p.v + 48 + 8 * bitNat s.cpu.p.d + 4 * bitNat s.cpu.p.i +
          2 * bitNat s.cpu.p.z + bitNat s.cpu.p.c ∧
      exec .php s =
        .next
          { s with
            ram := s.ram.write (256 + s.cpu.sp.toNat) v
            cpu := { s.cpu with sp := s.cpu.sp - 1, cycles := s.cpu.cycles + 3 } }) ∧
    (let v := s.ram.read (256 + (s.cpu.sp + 1).toNat)
     exec .pla s =
       .next { s with cpu := { withA s.cpu v with sp := s.cpu.sp + 1, cycles := s.cpu.cycles + 4 } }) ∧
    (let v := (s.ram.read (256 + (s.cpu.sp + 1).toNat)).toNat
     exec .plp s =
       .next
         { s with
           cpu :=
             { s.cpu with
               sp := s.cpu.sp + 1
               cycles := s.cpu.cycles + 4
               p :=
                 { n := v.testBit 7, v := v.testBit 6, d := v.testBit 3, i := v.testBit 2, z := v.testBit 1
                   c := v.testBit 0 } } }))

/-- The one adder (43_arith_logic.md R250): the low byte of the exact sum, the ninth bit as carry, and overflow exactly
when the signed sum does not fit in a byte, which is when the operands agree in sign and the result does not. -/
def Obligations.AdderIsExact : Prop :=
  ∀ (a m : Byte) (cin : Bool),
    (add8 a m cin).r.toNat = sumOf a m cin % 256 ∧
    (add8 a m cin).c = decide (256 ≤ sumOf a m cin) ∧
    (add8 a m cin).v = outsideByte (a.toInt + m.toInt + bitNat cin) ∧
    ((add8 a m cin).v = true ↔ a.msb = m.msb ∧ (add8 a m cin).r.msb ≠ a.msb)

/-- ADC, SBC and the undocumented *SBC (R251, R252, R406): exact addition and subtraction with borrow, C, V, N and Z
from the exact results, D without effect.
Covers: adcIzX, adcZp, adcImm, adcAbs, adcIzY, adcZpX, adcAbsY, adcAbsX, sbcIzX, sbcZp, sbcImm, sbcImmEB, sbcAbs,
sbcIzY, sbcZpX, sbcAbsY, sbcAbsX. -/
def Obligations.AddAndSubtract : Prop :=
  encodingsOf .adc =
    [(0x61, .izX), (0x65, .zp), (0x69, .imm), (0x6D, .abs), (0x71, .izY), (0x75, .zpX), (0x79, .absY),
     (0x7D, .absX)] ∧
  encodingsOf .sbc =
    [(0xE1, .izX), (0xE5, .zp), (0xE9, .imm), (0xEB, .imm), (0xED, .abs), (0xF1, .izY), (0xF5, .zpX), (0xF9, .absY),
     (0xFD, .absX)] ∧
  (∀ (i : Instr) (s : State), i.mnemonic = .adc → ∃ src : Source, i.operand = src.operand ∧
    let r := loadSource src s
    exec i s = .next (readNext i s r (addedTo s.cpu r.m s.cpu.p.c))) ∧
  (∀ (i : Instr) (s : State), i.mnemonic = .sbc → ∃ src : Source, i.operand = src.operand ∧
    let r := loadSource src s
    exec i s = .next (readNext i s r (subtractedFrom s.cpu r.m)))

/-- AND, ORA, EOR (R253 to R255).
Covers: andIzX, andZp, andImm, andAbs, andIzY, andZpX, andAbsY, andAbsX, oraIzX, oraZp, oraImm, oraAbs, oraIzY,
oraZpX, oraAbsY, oraAbsX, eorIzX, eorZp, eorImm, eorAbs, eorIzY, eorZpX, eorAbsY, eorAbsX. -/
def Obligations.LogicInstructions : Prop :=
  encodingsOf .and =
    [(0x21, .izX), (0x25, .zp), (0x29, .imm), (0x2D, .abs), (0x31, .izY), (0x35, .zpX), (0x39, .absY),
     (0x3D, .absX)] ∧
  encodingsOf .ora =
    [(0x01, .izX), (0x05, .zp), (0x09, .imm), (0x0D, .abs), (0x11, .izY), (0x15, .zpX), (0x19, .absY),
     (0x1D, .absX)] ∧
  encodingsOf .eor =
    [(0x41, .izX), (0x45, .zp), (0x49, .imm), (0x4D, .abs), (0x51, .izY), (0x55, .zpX), (0x59, .absY),
     (0x5D, .absX)] ∧
  (∀ (i : Instr) (s : State), i.mnemonic = .and → ∃ src : Source, i.operand = src.operand ∧
    let r := loadSource src s
    exec i s = .next (readNext i s r (withA s.cpu (s.cpu.a &&& r.m)))) ∧
  (∀ (i : Instr) (s : State), i.mnemonic = .ora → ∃ src : Source, i.operand = src.operand ∧
    let r := loadSource src s
    exec i s = .next (readNext i s r (withA s.cpu (s.cpu.a ||| r.m)))) ∧
  (∀ (i : Instr) (s : State), i.mnemonic = .eor → ∃ src : Source, i.operand = src.operand ∧
    let r := loadSource src s
    exec i s = .next (readNext i s r (withA s.cpu (s.cpu.a ^^^ r.m))))

/-- CMP, CPX, CPY by the unsigned order and the eight-bit difference (R256 to R259), BIT from the operand's bits 7 and 6
and `A & M` (R260); only flags change.
Covers: cmpIzX, cmpZp, cmpImm, cmpAbs, cmpIzY, cmpZpX, cmpAbsY, cmpAbsX, cpxImm, cpxZp, cpxAbs, cpyImm, cpyZp, cpyAbs,
bitZp, bitAbs. -/
def Obligations.CompareAndBitTest : Prop :=
  encodingsOf .cmp =
    [(0xC1, .izX), (0xC5, .zp), (0xC9, .imm), (0xCD, .abs), (0xD1, .izY), (0xD5, .zpX), (0xD9, .absY),
     (0xDD, .absX)] ∧
  encodingsOf .cpx = [(0xE0, .imm), (0xE4, .zp), (0xEC, .abs)] ∧
  encodingsOf .cpy = [(0xC0, .imm), (0xC4, .zp), (0xCC, .abs)] ∧
  encodingsOf .bit = [(0x24, .zp), (0x2C, .abs)] ∧
  (∀ (i : Instr) (s : State), i.mnemonic = .cmp → ∃ src : Source, i.operand = src.operand ∧
    let r := loadSource src s
    exec i s = .next (readNext i s r { s.cpu with p := comparedTo s.cpu.p s.cpu.a r.m })) ∧
  (∀ (i : Instr) (s : State), i.mnemonic = .cpx → ∃ src : Source, i.operand = src.operand ∧
    let r := loadSource src s
    exec i s = .next (readNext i s r { s.cpu with p := comparedTo s.cpu.p s.cpu.x r.m })) ∧
  (∀ (i : Instr) (s : State), i.mnemonic = .cpy → ∃ src : Source, i.operand = src.operand ∧
    let r := loadSource src s
    exec i s = .next (readNext i s r { s.cpu with p := comparedTo s.cpu.p s.cpu.y r.m })) ∧
  (∀ (i : Instr) (s : State), i.mnemonic = .bit → ∃ p : Place, i.operand = .mem p ∧
    let r := loadSource (.mem p) s
    exec i s =
      .next
        (readNext i s r
          { s.cpu with
            p :=
              { s.cpu.p with
                z := decide ((s.cpu.a &&& r.m).toNat = 0)
                n := r.m.toNat.testBit 7
                v := r.m.toNat.testBit 6 } }))

/-- INC and DEC in memory, one read and one write (R261, R262); INX, INY, DEX, DEY (R263 to R266). All wrap modulo 256,
set N and Z, and leave C and V.
Covers: incZp, incAbs, incZpX, incAbsX, decZp, decAbs, decZpX, decAbsX, inx, iny, dex, dey. -/
def Obligations.IncrementAndDecrement : Prop :=
  encodingsOf .inc = [(0xE6, .zp), (0xEE, .abs), (0xF6, .zpX), (0xFE, .absX)] ∧
  encodingsOf .dec = [(0xC6, .zp), (0xCE, .abs), (0xD6, .zpX), (0xDE, .absX)] ∧
  encodingsOf .inx = [(0xE8, .imp)] ∧
  encodingsOf .iny = [(0xC8, .imp)] ∧
  encodingsOf .dex = [(0xCA, .imp)] ∧
  encodingsOf .dey = [(0x88, .imp)] ∧
  (∀ (i : Instr) (s : State), i.mnemonic = .inc → ∃ p : Place, i.operand = .mem p ∧
    exec i s =
      .next (modifyNext i p s fun m => let r := BitVec.ofNat 8 ((m.toNat + 1) % 256); (r, withNZ s.cpu r))) ∧
  (∀ (i : Instr) (s : State), i.mnemonic = .dec → ∃ p : Place, i.operand = .mem p ∧
    exec i s =
      .next (modifyNext i p s fun m => let r := BitVec.ofNat 8 ((m.toNat + 255) % 256); (r, withNZ s.cpu r))) ∧
  (∀ s : State,
    exec .inx s = .next (registerNext .inx s (withX s.cpu (BitVec.ofNat 8 ((s.cpu.x.toNat + 1) % 256)))) ∧
    exec .iny s = .next (registerNext .iny s (withY s.cpu (BitVec.ofNat 8 ((s.cpu.y.toNat + 1) % 256)))) ∧
    exec .dex s = .next (registerNext .dex s (withX s.cpu (BitVec.ofNat 8 ((s.cpu.x.toNat + 255) % 256)))) ∧
    exec .dey s = .next (registerNext .dey s (withY s.cpu (BitVec.ofNat 8 ((s.cpu.y.toNat + 255) % 256)))))

/-- ASL, LSR, ROL, ROR (44_shift_rotate.md R301 to R304), on A and in memory, by the arithmetic of `shiftOf`; N and Z
from the result, C the bit shifted out, V unchanged.
Covers: aslZp, aslAcc, aslAbs, aslZpX, aslAbsX, lsrZp, lsrAcc, lsrAbs, lsrZpX, lsrAbsX, rolZp, rolAcc, rolAbs, rolZpX,
rolAbsX, rorZp, rorAcc, rorAbs, rorZpX, rorAbsX. -/
def Obligations.ShiftsAndRotates : Prop :=
  encodingsOf .asl = [(0x06, .zp), (0x0A, .acc), (0x0E, .abs), (0x16, .zpX), (0x1E, .absX)] ∧
  encodingsOf .lsr = [(0x46, .zp), (0x4A, .acc), (0x4E, .abs), (0x56, .zpX), (0x5E, .absX)] ∧
  encodingsOf .rol = [(0x26, .zp), (0x2A, .acc), (0x2E, .abs), (0x36, .zpX), (0x3E, .absX)] ∧
  encodingsOf .ror = [(0x66, .zp), (0x6A, .acc), (0x6E, .abs), (0x76, .zpX), (0x7E, .absX)] ∧
  (∀ (i : Instr) (s : State) (f : Byte → Bool → Byte × Bool), shiftOf i.mnemonic = some f →
    (i.operand = .acc ∧
      let r := f s.cpu.a s.cpu.p.c
      exec i s = .next (registerNext i s { shiftedFlags s.cpu r.1 r.2 with a := r.1 })) ∨
    (∃ p : Place, i.operand = .mem p ∧
      exec i s = .next (modifyNext i p s fun m => let r := f m s.cpu.p.c; (r.1, shiftedFlags s.cpu r.1 r.2))))

/-- The eight conditional branches (45_control.md R321 to R329): taken, PC becomes the address after the branch plus the
signed displacement, in 3 cycles or 4 to another page; not taken, PC stays after the branch, in 2. Nothing else
changes.
Covers: bcc, bcs, beq, bne, bmi, bpl, bvc, bvs. -/
def Obligations.Branches : Prop :=
  encodingsOf .bcc = [(0x90, .rel)] ∧
  encodingsOf .bcs = [(0xB0, .rel)] ∧
  encodingsOf .beq = [(0xF0, .rel)] ∧
  encodingsOf .bne = [(0xD0, .rel)] ∧
  encodingsOf .bmi = [(0x30, .rel)] ∧
  encodingsOf .bpl = [(0x10, .rel)] ∧
  encodingsOf .bvc = [(0x50, .rel)] ∧
  encodingsOf .bvs = [(0x70, .rel)] ∧
  (∀ (i : Instr) (s : State) (cond : Status → Bool), branchCondition i.mnemonic = some cond →
    ∃ d : Byte, i.operand = .rel d ∧
      let target : Word := BitVec.ofInt 16 (s.cpu.pc.toNat + d.toInt)
      exec i s =
        .next
          (if cond s.cpu.p = true then
            { s with
              cpu :=
                { s.cpu with
                  pc := target
                  cycles := s.cpu.cycles + 3 + (if s.cpu.pc.toNat / 256 = target.toNat / 256 then 0 else 1) } }
          else { s with cpu := { s.cpu with cycles := s.cpu.cycles + 2 } }))

/-- JMP (R330): absolute, and indirect with the pointer's high byte read from the pointer's own page (30_encoding.md
R165); only 0x6C uses the indirect mode. JSR pushes the address of its own last byte, high byte first; RTS pulls it
and adds 1; RTI pulls the status, then the address, with no addition (R331 to R333).
Covers: jmpAbs, jmpInd, jsrAbs, rts, rti. -/
def Obligations.JumpsCallsAndReturns : Prop :=
  encodingsOf .jmp = [(0x4C, .abs), (0x6C, .ind)] ∧
  (∀ i : Instr, i.operand.mode = .ind → i.opcode = 0x6C) ∧
  (∀ (s : State) (a : Word),
    exec (.jmpAbs a) s = .next { s with cpu := { s.cpu with pc := a, cycles := s.cpu.cycles + 3 } }) ∧
  (∀ (s : State) (p : Word),
    let lo := cpuRead p s
    let hi := cpuRead (BitVec.ofNat 16 (256 * (p.toNat / 256) + (p.toNat + 1) % 256)) lo.2
    exec (.jmpInd p) s =
      .next
        { hi.2 with
          cpu :=
            { s.cpu with
              pc := BitVec.ofNat 16 (256 * hi.1.toNat + lo.1.toNat)
              cycles := s.cpu.cycles + 5 } }) ∧
  encodingsOf .jsr = [(0x20, .abs)] ∧
  encodingsOf .rts = [(0x60, .imp)] ∧
  encodingsOf .rti = [(0x40, .imp)] ∧
  (∀ (s : State) (a : Word),
    let r := (s.cpu.pc.toNat + 65535) % 65536
    exec (.jsrAbs a) s =
      .next
        { s with
          ram :=
            (s.ram.write (256 + s.cpu.sp.toNat) (BitVec.ofNat 8 (r / 256))).write (256 + (s.cpu.sp - 1).toNat)
              (BitVec.ofNat 8 (r % 256))
          cpu := { s.cpu with sp := s.cpu.sp - 2, pc := a, cycles := s.cpu.cycles + 6 } }) ∧
  (∀ s : State,
    let lo := s.ram.read (256 + (s.cpu.sp + 1).toNat)
    let hi := s.ram.read (256 + (s.cpu.sp + 2).toNat)
    exec .rts s =
      .next
        { s with
          cpu :=
            { s.cpu with
              sp := s.cpu.sp + 2
              pc := BitVec.ofNat 16 ((256 * hi.toNat + lo.toNat + 1) % 65536)
              cycles := s.cpu.cycles + 6 } }) ∧
  (∀ s : State,
    let v := (s.ram.read (256 + (s.cpu.sp + 1).toNat)).toNat
    let lo := s.ram.read (256 + (s.cpu.sp + 2).toNat)
    let hi := s.ram.read (256 + (s.cpu.sp + 3).toNat)
    exec .rti s =
      .next
        { s with
          cpu :=
            { s.cpu with
              sp := s.cpu.sp + 3
              p :=
                { n := v.testBit 7, v := v.testBit 6, d := v.testBit 3, i := v.testBit 2, z := v.testBit 1
                  c := v.testBit 0 }
              pc := BitVec.ofNat 16 (256 * hi.toNat + lo.toNat)
              cycles := s.cpu.cycles + 6 } })

/-- BRK (R334): it pushes the address of the opcode + 2 (PC after the one-byte fetch, plus 1) and the status with bits 5
and 4 set, sets I, leaves D, and jumps through 0xFFFE, whatever I is.
Covers: brk. -/
def Obligations.BreakTakesInterrupt : Prop :=
  encodingsOf .brk = [(0x00, .imp)] ∧
  (∀ s : State,
    let r := (s.cpu.pc.toNat + 1) % 65536
    exec .brk s =
      .next
        { s with
          ram :=
            ((s.ram.write (256 + s.cpu.sp.toNat) (BitVec.ofNat 8 (r / 256))).write (256 + (s.cpu.sp - 1).toNat)
                (BitVec.ofNat 8 (r % 256))).write (256 + (s.cpu.sp - 2).toNat) (s.cpu.p.toByte true)
          cpu :=
            { s.cpu with
              sp := s.cpu.sp - 3
              p := { s.cpu.p with i := true }
              pc := BitVec.ofNat 16 (256 * (peek s 0xFFFF).toNat + (peek s 0xFFFE).toNat)
              cycles := s.cpu.cycles + 7 } })

/-- NOP and the 27 undocumented no-operations (R335, 47_unofficial.md R393): implied and immediate forms change nothing
but the cycle counter, memory forms make their one bus read, with its side effect, and discard the value.
Covers: nopZp, nopAbs, nopZpX, nopImp, nopAbsX, nopImm, nop. -/
def Obligations.NoOperations : Prop :=
  documentedEncodingsOf .nop = [(0xEA, .imp)] ∧
  undocumentedEncodingsOf .nop =
    [(0x04, .zp), (0x0C, .abs), (0x14, .zpX), (0x1A, .imp), (0x1C, .absX), (0x34, .zpX), (0x3A, .imp),
     (0x3C, .absX), (0x44, .zp), (0x54, .zpX), (0x5A, .imp), (0x5C, .absX), (0x64, .zp), (0x74, .zpX), (0x7A, .imp),
     (0x7C, .absX), (0x80, .imm), (0x82, .imm), (0x89, .imm), (0xC2, .imm), (0xD4, .zpX), (0xDA, .imp),
     (0xDC, .absX), (0xE2, .imm), (0xF4, .zpX), (0xFA, .imp), (0xFC, .absX)] ∧
  (∀ (i : Instr) (s : State), i.mnemonic = .nop → i.wellFormed = true →
    (i.operand = .imp ∧ exec i s = .next { s with cpu := { s.cpu with cycles := s.cpu.cycles + 2 } }) ∨
    (∃ m : Byte, i.operand = .imm m ∧
      exec i s = .next { s with cpu := { s.cpu with cycles := s.cpu.cycles + 2 } }) ∨
    (∃ p : Place, i.operand = .mem p ∧ exec i s = .next (readNext i s (loadSource (.mem p) s) s.cpu)))

/-- The flag instructions (46_flags.md R370 to R377): one stored flag takes its value, nothing else changes, in 2
cycles. V goes from 0 to 1 only by ADC, SBC (both encodings), BIT, PLP, RTI, RRA, ISC and ARR.
Covers: clc, sec, cli, sei, cld, sed, clv. -/
def Obligations.FlagInstructions : Prop :=
  encodingsOf .clc = [(0x18, .imp)] ∧
  encodingsOf .sec = [(0x38, .imp)] ∧
  encodingsOf .cli = [(0x58, .imp)] ∧
  encodingsOf .sei = [(0x78, .imp)] ∧
  encodingsOf .cld = [(0xD8, .imp)] ∧
  encodingsOf .sed = [(0xF8, .imp)] ∧
  encodingsOf .clv = [(0xB8, .imp)] ∧
  (∀ (i : Instr) (s : State) (f : Status → Status), flagWrite i.mnemonic = some f →
    exec i s = .next { s with cpu := { s.cpu with p := f s.cpu.p, cycles := s.cpu.cycles + 2 } }) ∧
  (∀ (i : Instr) (s t : State), exec i s = .next t → s.cpu.p.v = false → t.cpu.p.v = true →
    i.mnemonic ∈ [Mnemonic.adc, .sbc, .bit, .plp, .rti, .rra, .isc, .arr])

/-- JAM (47_unofficial.md R392): it halts the CPU in 2 cycles and PC stays past the opcode. While halted a CPU step
only counts 1 cycle, NMI and IRQ are ignored, no instruction clears the halt, and `reset()` does.
Covers: jam. -/
def Obligations.JamHaltsUntilReset : Prop :=
  encodingsOf .jam =
    [(0x02, .imp), (0x12, .imp), (0x22, .imp), (0x32, .imp), (0x42, .imp), (0x52, .imp), (0x62, .imp), (0x72, .imp),
     (0x92, .imp), (0xB2, .imp), (0xD2, .imp), (0xF2, .imp)] ∧
  (∀ (i : Instr) (s : State), i.mnemonic = .jam →
    exec i s = .next { s with cpu := { s.cpu with halted := true, cycles := s.cpu.cycles + 2 } }) ∧
  (∀ s : State, s.cpu.halted = true →
    cpuStep s = .next { s with cpu := { s.cpu with cycles := s.cpu.cycles + 1 } } ∧ nmi s = s ∧ irq s = s) ∧
  (∀ (i : Instr) (s t : State), s.cpu.halted = true → exec i s = .next t → t.cpu.halted = true) ∧
  (∀ s : State, (cpuReset s).cpu.halted = false)

/-- SLO, RLA, SRE (R394 to R396): shift or rotate the memory byte, then OR, AND or exclusive-or it into A; N and Z
describe A, C is the bit shifted out. RRA, DCP, ISC (R397, R400, R401): rotate right and add with the bit rotated out,
decrement and compare with A, increment and subtract with borrow.
Covers: sloIzX, sloZp, sloAbs, sloIzY, sloZpX, sloAbsY, sloAbsX, rlaIzX, rlaZp, rlaAbs, rlaIzY, rlaZpX, rlaAbsY,
rlaAbsX, sreIzX, sreZp, sreAbs, sreIzY, sreZpX, sreAbsY, sreAbsX, rraIzX, rraZp, rraAbs, rraIzY, rraZpX, rraAbsY,
rraAbsX, dcpIzX, dcpZp, dcpAbs, dcpIzY, dcpZpX, dcpAbsY, dcpAbsX, iscIzX, iscZp, iscAbs, iscIzY, iscZpX, iscAbsY,
iscAbsX. -/
def Obligations.ReadModifyWriteCombinations : Prop :=
  encodingsOf .slo =
    [(0x03, .izX), (0x07, .zp), (0x0F, .abs), (0x13, .izY), (0x17, .zpX), (0x1B, .absY), (0x1F, .absX)] ∧
  encodingsOf .rla =
    [(0x23, .izX), (0x27, .zp), (0x2F, .abs), (0x33, .izY), (0x37, .zpX), (0x3B, .absY), (0x3F, .absX)] ∧
  encodingsOf .sre =
    [(0x43, .izX), (0x47, .zp), (0x4F, .abs), (0x53, .izY), (0x57, .zpX), (0x5B, .absY), (0x5F, .absX)] ∧
  (∀ (i : Instr) (s : State), i.mnemonic = .slo → ∃ p : Place, i.operand = .mem p ∧
    exec i s =
      .next
        (modifyNext i p s fun m =>
          let r := doubled m false
          (r, withC (withA s.cpu (s.cpu.a ||| r)) (topBit m)))) ∧
  (∀ (i : Instr) (s : State), i.mnemonic = .rla → ∃ p : Place, i.operand = .mem p ∧
    exec i s =
      .next
        (modifyNext i p s fun m =>
          let r := doubled m s.cpu.p.c
          (r, withC (withA s.cpu (s.cpu.a &&& r)) (topBit m)))) ∧
  (∀ (i : Instr) (s : State), i.mnemonic = .sre → ∃ p : Place, i.operand = .mem p ∧
    exec i s =
      .next
        (modifyNext i p s fun m =>
          let r := halved m false
          (r, withC (withA s.cpu (s.cpu.a ^^^ r)) (lowBit m)))) ∧
  encodingsOf .rra =
    [(0x63, .izX), (0x67, .zp), (0x6F, .abs), (0x73, .izY), (0x77, .zpX), (0x7B, .absY), (0x7F, .absX)] ∧
  encodingsOf .dcp =
    [(0xC3, .izX), (0xC7, .zp), (0xCF, .abs), (0xD3, .izY), (0xD7, .zpX), (0xDB, .absY), (0xDF, .absX)] ∧
  encodingsOf .isc =
    [(0xE3, .izX), (0xE7, .zp), (0xEF, .abs), (0xF3, .izY), (0xF7, .zpX), (0xFB, .absY), (0xFF, .absX)] ∧
  (∀ (i : Instr) (s : State), i.mnemonic = .rra → ∃ p : Place, i.operand = .mem p ∧
    exec i s =
      .next
        (modifyNext i p s fun m =>
          let r := halved m s.cpu.p.c
          (r, addedTo s.cpu r (lowBit m)))) ∧
  (∀ (i : Instr) (s : State), i.mnemonic = .dcp → ∃ p : Place, i.operand = .mem p ∧
    exec i s =
      .next
        (modifyNext i p s fun m =>
          let r := BitVec.ofNat 8 ((m.toNat + 255) % 256)
          (r, { s.cpu with p := comparedTo s.cpu.p s.cpu.a r }))) ∧
  (∀ (i : Instr) (s : State), i.mnemonic = .isc → ∃ p : Place, i.operand = .mem p ∧
    exec i s =
      .next
        (modifyNext i p s fun m =>
          let r := BitVec.ofNat 8 ((m.toNat + 1) % 256)
          (r, subtractedFrom s.cpu r)))

/-- LAX, LAS (R399, R413) and the immediate combinations ANC, ALR, ARR, SBX (R402 to R405).
Covers: laxIzX, laxZp, laxAbs, laxIzY, laxZpY, laxAbsY, lasAbsY, ancImm, alrImm, arrImm, sbxImm. -/
def Obligations.CombinedLoadsAndImmediates : Prop :=
  encodingsOf .lax = [(0xA3, .izX), (0xA7, .zp), (0xAF, .abs), (0xB3, .izY), (0xB7, .zpY), (0xBF, .absY)] ∧
  encodingsOf .las = [(0xBB, .absY)] ∧
  encodingsOf .anc = [(0x0B, .imm), (0x2B, .imm)] ∧
  encodingsOf .alr = [(0x4B, .imm)] ∧
  encodingsOf .arr = [(0x6B, .imm)] ∧
  encodingsOf .sbx = [(0xCB, .imm)] ∧
  (∀ (i : Instr) (s : State), i.mnemonic = .lax → ∃ p : Place, i.operand = .mem p ∧
    let r := loadSource (.mem p) s
    exec i s = .next (readNext i s r { withA s.cpu r.m with x := r.m })) ∧
  (∀ (a : Word) (s : State),
    let r := loadSource (.mem (.absY a)) s
    let v := r.m &&& s.cpu.sp
    exec (.lasAbsY a) s = .next (readNext (.lasAbsY a) s r { withA s.cpu v with x := v, sp := v })) ∧
  (∀ (i : Instr) (s : State), i.mnemonic = .anc → i.wellFormed = true → ∃ m : Byte, i.operand = .imm m ∧
    let v := s.cpu.a &&& m
    exec i s = .next (registerNext i s (withC (withA s.cpu v) (topBit v)))) ∧
  (∀ (m : Byte) (s : State),
    let v := s.cpu.a &&& m
    exec (.alrImm m) s = .next (registerNext (.alrImm m) s (withC (withA s.cpu (halved v false)) (lowBit v)))) ∧
  (∀ (m : Byte) (s : State),
    let v := halved (s.cpu.a &&& m) s.cpu.p.c
    exec (.arrImm m) s =
      .next
        (registerNext (.arrImm m) s
          { s.cpu with
            a := v
            p :=
              { nzOf s.cpu.p v with
                c := v.toNat.testBit 6
                v := v.toNat.testBit 6 != v.toNat.testBit 5 } })) ∧
  (∀ (m : Byte) (s : State),
    let t := s.cpu.a &&& s.cpu.x
    exec (.sbxImm m) s =
      .next
        (registerNext (.sbxImm m) s
          (withC (withX s.cpu (BitVec.ofNat 8 ((t.toNat + 256 - m.toNat) % 256))) (decide (m.toNat ≤ t.toNat)))))

/-- ANE and LXA (R407, R408), for every value of the two constants the spec leaves open (log entry 4).
Covers: aneImm, lxaImm. -/
def Obligations.UnstableImmediates : Prop :=
  encodingsOf .ane = [(0x8B, .imm)] ∧
  encodingsOf .lxa = [(0xAB, .imm)] ∧
  (∀ (m : Byte) (s : State),
    exec (.aneImm m) s =
      .next (registerNext (.aneImm m) s (withA s.cpu ((s.cpu.a ||| Config.aneMagic) &&& s.cpu.x &&& m)))) ∧
  (∀ (m : Byte) (s : State),
    let r := (s.cpu.a ||| Config.lxaMagic) &&& m
    exec (.lxaImm m) s = .next (registerNext (.lxaImm m) s { withA s.cpu r with x := r }))

/-- SHA, SHX, SHY, TAS (R409 to R412, R414): the register combination ANDed with the high byte of the base plus 1 is
written, and on a page cross it also becomes the high byte of the address; TAS sets S to `A & X` first.
Covers: shaIzY, shaAbsY, shxAbsY, shyAbsX, tasAbsY. -/
def Obligations.HighByteStores : Prop :=
  encodingsOf .sha = [(0x93, .izY), (0x9F, .absY)] ∧
  encodingsOf .shx = [(0x9E, .absY)] ∧
  encodingsOf .shy = [(0x9C, .absX)] ∧
  encodingsOf .tas = [(0x9B, .absY)] ∧
  (∀ (i : Instr) (s : State), i.mnemonic = .sha → ∃ p : Place, i.operand = .mem p ∧
    let v := s.cpu.a &&& s.cpu.x
    exec i s = .next (writeNext i s s (highStoreAddr p s v) (highStoreValue p s v) s.cpu)) ∧
  (∀ (a : Word) (s : State),
    exec (.shxAbsY a) s =
      .next
        (writeNext (.shxAbsY a) s s (highStoreAddr (.absY a) s s.cpu.x) (highStoreValue (.absY a) s s.cpu.x)
          s.cpu)) ∧
  (∀ (a : Word) (s : State),
    exec (.shyAbsX a) s =
      .next
        (writeNext (.shyAbsX a) s s (highStoreAddr (.absX a) s s.cpu.y) (highStoreValue (.absX a) s s.cpu.y)
          s.cpu)) ∧
  (∀ (a : Word) (s : State),
    let v := s.cpu.a &&& s.cpu.x
    exec (.tasAbsY a) s =
      .next
        (writeNext (.tasAbsY a) s { s with cpu := { s.cpu with sp := v } } (highStoreAddr (.absY a) s v)
          (highStoreValue (.absY a) s v) { s.cpu with sp := v }))

/-! Rules over all instructions. -/

/-- EVERY INSTRUCTION COMPLETES, in every state, with 2 to 8 cycles, or at most 522 when it stores to 0x4014
(30_encoding.md R169, R170, R177, 20_memory.md R141, 60_exceptions.md R670). The bound 522 is the model's own deduction
from R177 and R141 (log entry 18): 53_synchronizer.md R635 infers 521. -/
def Obligations.EveryInstructionCompletes : Prop :=
  ∀ (i : Instr) (s : State), ∃ t : State, exec i s = .next t ∧
    s.cpu.cycles + 2 ≤ t.cpu.cycles ∧ t.cpu.cycles ≤ s.cpu.cycles + 522 ∧
    (0x4014 ∉ storeAddrs i s → t.cpu.cycles ≤ s.cpu.cycles + 8)

/-- THE MEMORY FRAME, for every instruction: a byte outside the device windows that the instruction does not store to
(`storeAddrs`: its effective address, its stack slots, or the substituted address of a high-byte store) reads as
before. A store into 0x8000-0xFFFF under mapper 2 selects a bank, so there the bytes at 0x8000 and above are left
out (51_cartridge.md R570). -/
def Obligations.MemoryFrame : Prop :=
  ∀ (i : Instr) (s t : State), s.inv = true → exec i s = .next t →
    ∀ b : Word, outsideDevices b = true → (∀ a ∈ storeAddrs i s, sameCell a b = false) →
      (b.toNat < 0x8000 ∨ s.cart.mapper ≠ .uxrom ∨ ∀ a ∈ storeAddrs i s, a.toNat < 0x8000) →
      peek t b = peek s b

/-- The CPU and the PPU meet in the register window and the NMI report only (60_exceptions.md R677, 20_memory.md R131):
no instruction moves the PPU's position, pipelines, frame buffer, sprite flags or the Synchronizer, and no dot
touches the CPU, the RAM, the cartridge, the controllers or the host. -/
def Obligations.CpuAndPpuAreApart : Prop :=
  (∀ (i : Instr) (s t : State), exec i s = .next t →
    t.sync = s.sync ∧ t.cpu.irqLine = s.cpu.irqLine ∧ t.ppu.scanline = s.ppu.scanline ∧ t.ppu.dot = s.ppu.dot ∧
      t.ppu.frame = s.ppu.frame ∧ t.ppu.bg = s.ppu.bg ∧ t.ppu.spr = s.ppu.spr ∧
      t.ppu.frameBuffer = s.ppu.frameBuffer ∧ t.ppu.sprite0Hit = s.ppu.sprite0Hit ∧
      t.ppu.spriteOverflow = s.ppu.spriteOverflow ∧ t.host.presented = s.host.presented ∧
      t.host.lastFrame = s.host.lastFrame ∧ t.host.resetRequested = s.host.resetRequested) ∧
  (∀ s : State,
    (drain s).1.cpu = s.cpu ∧ (drain s).1.ram = s.ram ∧ (drain s).1.cart = s.cart ∧ (drain s).1.ctl1 = s.ctl1 ∧
      (drain s).1.ctl2 = s.ctl2 ∧ (drain s).1.host = s.host)

/-- D has no effect but in pushed copies and where it is loaded or set (10_state.md R41): two runs of any other
instruction from states that differ in D alone end in states that differ in D alone. -/
def Obligations.DecimalFlagHasNoEffect : Prop :=
  ∀ (i : Instr) (s : State) (d : Bool), i.mnemonic ∉ [Mnemonic.php, .brk, .plp, .rti, .cld, .sed] →
    ∃ t : State, exec i s = .next t ∧
      exec i (s.setP { s.cpu.p with d := d }) = .next (t.setP { t.cpu.p with d := d })

/-! The CPU bus. -/

/-- The two folds (20_memory.md R102, R103). RAM: a read at any of the four folds is the read modulo 0x0800 and has no
side effect, and a write is seen by a read at `b` exactly when the addresses agree modulo 0x0800. PPU registers: an
access at any address of 0x2000-0x3FFF is the access at 0x2000 plus the address modulo 8, the register of that index. -/
def Obligations.RamAndPpuWindowAreMirrored : Prop :=
  (∀ (a : Word) (s : State), a.toNat < 0x2000 →
    cpuRead a s = cpuRead (BitVec.ofNat 16 (a.toNat % 0x0800)) s ∧ (cpuRead a s).2 = s) ∧
  (∀ (a b : Word) (v : Byte) (s : State), s.ram.wf = true → a.toNat < 0x2000 → b.toNat < 0x2000 →
    peek (cpuWrite a v s) b = if a.toNat % 0x0800 = b.toNat % 0x0800 then v else peek s b) ∧
  (∀ (a : Word) (v : Byte) (s : State), 0x2000 ≤ a.toNat → a.toNat < 0x4000 →
      let r : BitVec 3 := BitVec.ofNat 3 (a.toNat % 8)
      let b : Word := BitVec.ofNat 16 (0x2000 + a.toNat % 8)
      cpuRead a s = cpuRead b s ∧ cpuWrite a v s = cpuWrite b v s ∧
        cpuRead a s = ((s.ppu.regRead s.cart r).1, { s with ppu := (s.ppu.regRead s.cart r).2 }) ∧
        cpuWrite a v s =
          { s with ppu := (s.ppu.regWrite s.cart r v).1, cart := (s.ppu.regWrite s.cart r v).2 })

/-- The APU window and open bus (R104, R108, 51_cartridge.md R566): reads of 0x4000-0x4015, 0x4018-0x401F and
0x4020-0x5FFF return 0x00 and change nothing; writes to 0x4000-0x4013, 0x4015, 0x4017, 0x4018-0x401F and
0x4020-0x5FFF do nothing; a write to 0x4014 is OAM DMA. -/
def Obligations.UndrivenAddresses : Prop :=
  (∀ (a : Word) (s : State), 0x4000 ≤ a.toNat → a.toNat < 0x6000 → a.toNat ≠ 0x4016 → a.toNat ≠ 0x4017 →
    cpuRead a s = (0x00, s)) ∧
  (∀ (a : Word) (v : Byte) (s : State), 0x4000 ≤ a.toNat → a.toNat < 0x6000 → a.toNat ≠ 0x4014 →
    a.toNat ≠ 0x4016 → cpuWrite a v s = s) ∧
  (∀ (v : Byte) (s : State), cpuWrite 0x4014 v s = oamDma v s)

/-- Reads have side effects at PPUSTATUS, PPUDATA and their folds and at the two controller ports only (R114), and no
read at all changes the CPU, the RAM, the cartridge, the Synchronizer or the PPU's memories. -/
def Obligations.ReadsWithoutSideEffects : Prop :=
  (∀ (a : Word) (s : State),
    (0x2000 ≤ a.toNat → a.toNat < 0x4000 → a.toNat % 8 ≠ 2 ∧ a.toNat % 8 ≠ 7) → a.toNat ≠ 0x4016 →
    a.toNat ≠ 0x4017 → (cpuRead a s).2 = s) ∧
  (∀ (a : Word) (s : State),
    let t := (cpuRead a s).2
    t.cpu = s.cpu ∧ t.ram = s.ram ∧ t.cart = s.cart ∧ t.sync = s.sync ∧ t.ppu.oam = s.ppu.oam ∧
      t.ppu.palette = s.ppu.palette ∧ t.ppu.ciram = s.ppu.ciram ∧ t.ppu.ioLatch = s.ppu.ioLatch)

/-- The cartridge's CPU window (51_cartridge.md R565, R567 to R571). Reads: open bus, PRG RAM, and PRG ROM by mapper,
with no side effect. Writes: nothing below 0x6000, PRG RAM below 0x8000, and above it nothing (mapper 0), the PRG bank
(mapper 2) or the CHR bank (mapper 3), the byte written as it is. PRG ROM is never written. -/
def Obligations.CartridgeCpuWindow : Prop :=
  (∀ (a : Word) (s : State), 0x4020 ≤ a.toNat →
      (cpuRead a s).2 = s ∧
      (a.toNat < 0x6000 → peek s a = 0x00) ∧
      (0x6000 ≤ a.toNat → a.toNat < 0x8000 → peek s a = s.cart.prgRam.read (a.toNat - 0x6000)) ∧
      (0x8000 ≤ a.toNat → s.cart.mapper ≠ .uxrom →
        peek s a = s.cart.prgRom.read ((a.toNat - 0x8000) % (16384 * s.cart.prgBanks))) ∧
      (0x8000 ≤ a.toNat → a.toNat < 0xC000 → s.cart.mapper = .uxrom →
        peek s a = s.cart.prgRom.read (16384 * (s.cart.prgBank.toNat % s.cart.prgBanks) + a.toNat % 0x4000)) ∧
      (0xC000 ≤ a.toNat → s.cart.mapper = .uxrom →
        peek s a = s.cart.prgRom.read (16384 * (s.cart.prgBanks - 1) + a.toNat % 0x4000))) ∧
  (∀ (a : Word) (v : Byte) (s : State), 0x4020 ≤ a.toNat → a.toNat < 0x6000 → cpuWrite a v s = s) ∧
  (∀ (a : Word) (v : Byte) (s : State), 0x6000 ≤ a.toNat → a.toNat < 0x8000 →
    cpuWrite a v s =
      { s with cart := { s.cart with prgRam := s.cart.prgRam.write (a.toNat - 0x6000) v } }) ∧
  (∀ (a : Word) (v : Byte) (s : State), 0x8000 ≤ a.toNat →
    (s.cart.mapper = .nrom → cpuWrite a v s = s) ∧
    (s.cart.mapper = .uxrom → cpuWrite a v s = { s with cart := { s.cart with prgBank := v } }) ∧
    (s.cart.mapper = .cnrom → cpuWrite a v s = { s with cart := { s.cart with chrBank := v } })) ∧
  (∀ (a : Word) (v : Byte) (s : State), (cpuWrite a v s).cart.prgRom = s.cart.prgRom)

/-- OAM DMA (20_memory.md R140): 256 bus reads of page `v` in order, each with its side effects, byte `k` going to OAM
at the OAM address plus `k` modulo 256, the OAM address itself unchanged. From a page outside the device windows OAM
then holds the page's bytes, attribute bytes with their three unimplemented bits 0, and nothing else has changed. -/
def Obligations.OamDmaCopiesPage : Prop :=
  (∀ (v : Byte) (s : State),
    cpuWrite 0x4014 v s =
      (List.range 256).foldl
        (fun u k =>
          let r := cpuRead (BitVec.ofNat 16 (256 * v.toNat + k)) u
          { r.2 with ppu := r.2.ppu.oamStore (s.ppu.oamAddr + BitVec.ofNat 8 k) r.1 }) s ∧
    (cpuWrite 0x4014 v s).ppu.oamAddr = s.ppu.oamAddr) ∧
  (∀ (v : Byte) (s : State), s.ppu.oam.wf = true → (v.toNat < 0x20 ∨ 0x41 ≤ v.toNat) →
    ∃ oam : Memory 8,
      cpuWrite 0x4014 v s = { s with ppu := { s.ppu with oam := oam } } ∧
      ∀ k : Nat, k < 256 →
        let j := (s.ppu.oamAddr.toNat + k) % 256
        let b := peek s (BitVec.ofNat 16 (256 * v.toNat + k))
        oam.read j = if j % 4 = 2 then b &&& 0xE3 else b)

/-! The PPU's address space and registers. -/

/-- The PPU address space (R121 to R124, 51_cartridge.md R575, R577): pattern tables in the cartridge, through the CHR
bank under mapper 3, written only when CHR is RAM; nametables under the three arrangements; the palette folded every
32 bytes with its four aliases, six bits wide. A read changes nothing. -/
def Obligations.PpuAddressSpace : Prop :=
  (∀ (p : Ppu) (c : Cart) (a : BitVec 14) (v : Byte), a.toNat < 0x2000 →
    let bank := 8192 * (c.chrBank.toNat % c.chrBanks)
    (c.mapper = .cnrom → p.busRead c a = c.chr.read (bank + a.toNat)) ∧
    (c.mapper ≠ .cnrom → p.busRead c a = c.chr.read a.toNat) ∧
    (c.chrIsRam = true → p.busWrite c a v = (p, { c with chr := c.chr.write (bank + a.toNat) v })) ∧
    (c.chrIsRam = false → p.busWrite c a v = (p, c))) ∧
  (∀ (p : Ppu) (c : Cart) (a : BitVec 14) (v : Byte), 0x2000 ≤ a.toNat → a.toNat < 0x3F00 →
    let o := (a.toNat - 0x2000) % 0x1000
    let n := o / 0x400
    let i := o % 0x400
    let k :=
      match c.mirroring with
      | .horizontal => 0x400 * (n / 2) + i
      | .vertical => 0x400 * (n % 2) + i
      | .fourScreen => 0x400 * (n % 2) + i
    if c.mirroring = .fourScreen ∧ 2 ≤ n then
      p.busRead c a = c.fsVram.read k ∧ p.busWrite c a v = (p, { c with fsVram := c.fsVram.write k v })
    else p.busRead c a = p.ciram.read k ∧ p.busWrite c a v = ({ p with ciram := p.ciram.write k v }, c)) ∧
  (∀ (p : Ppu) (c : Cart) (a : BitVec 14) (v : Byte), 0x3F00 ≤ a.toNat →
    let q := a.toNat % 32
    let k := if q = 0x10 ∨ q = 0x14 ∨ q = 0x18 ∨ q = 0x1C then q - 0x10 else q
    (p.busRead c a).toNat = (p.palette.read k).toNat ∧
    p.busWrite c a v = ({ p with palette := p.palette.write k (BitVec.ofNat 6 (v.toNat % 64)) }, c))

/-- The PPU registers apart from the scroll, address and data ports (50_ppu.md R460, R462 to R466, R472, R474). Reads:
PPUSTATUS returns its three flags over the latch's low five bits, then clears VBlank and the write toggle; OAMDATA
returns the OAM byte; the write-only registers return the latch. Writes: PPUCTRL puts its low two bits into bits 11
and 10 of `t` and requests an NMI exactly on a 0 to 1 change of bit 7 during VBlank; a write to PPUSTATUS sets the
latch only. -/
def Obligations.PpuRegisterAccess : Prop :=
  (∀ (p : Ppu) (c : Cart),
      (p.regRead c 2).1.toNat =
        128 * bitNat p.vblank + 64 * bitNat p.sprite0Hit + 32 * bitNat p.spriteOverflow + p.ioLatch.toNat % 32 ∧
      (p.regRead c 2).2 = { p with vblank := false, w := false } ∧
      p.regRead c 4 = (p.oam.read p.oamAddr.toNat, p) ∧
      (∀ r : BitVec 3, r ∈ [0, 1, 3, 5, 6] → p.regRead c r = (p.ioLatch, p))) ∧
  (∀ (p : Ppu) (c : Cart) (v : Byte),
    p.regWrite c 0 v =
      ({ p with
          ctrl := v
          ioLatch := v
          t := BitVec.ofNat 15 (p.t.toNat % 1024 + 1024 * (v.toNat % 4) + 4096 * (p.t.toNat / 4096))
          nmiRequest := p.nmiRequest || (decide (p.ctrl.toNat < 128 ∧ 128 ≤ v.toNat) && p.vblank) }, c)) ∧
  (∀ (p : Ppu) (c : Cart) (v : Byte), p.regWrite c 1 v = ({ p with mask := v, ioLatch := v }, c)) ∧
  (∀ (p : Ppu) (c : Cart) (v : Byte), p.regWrite c 2 v = ({ p with ioLatch := v }, c)) ∧
  (∀ (p : Ppu) (c : Cart) (v : Byte), p.regWrite c 3 v = ({ p with oamAddr := v, ioLatch := v }, c)) ∧
  (∀ (p : Ppu) (c : Cart) (v : Byte),
    p.regWrite c 4 v =
      ({ p with
          oam := p.oam.write p.oamAddr.toNat (if p.oamAddr.toNat % 4 = 2 then v &&& 0xE3 else v)
          oamAddr := BitVec.ofNat 8 ((p.oamAddr.toNat + 1) % 256)
          ioLatch := v }, c))

/-- PPUSCROLL and PPUADDR (R467, R468), on the numbers of `t`, `v` and fine X: the first write with the toggle clear,
the second with it set, which for PPUADDR moves `t` into `v`. -/
def Obligations.ScrollAndAddressWrites : Prop :=
  ∀ (p : Ppu) (c : Cart) (v : Byte),
    (p.w = false →
      p.regWrite c 5 v =
        ({ p with
            t := BitVec.ofNat 15 (32 * (p.t.toNat / 32) + v.toNat / 8)
            x := BitVec.ofNat 3 (v.toNat % 8), w := true, ioLatch := v }, c)) ∧
    (p.w = true →
      p.regWrite c 5 v =
        ({ p with
            t :=
              BitVec.ofNat 15
                (p.t.toNat % 32 + 32 * (v.toNat / 8) + 1024 * (p.t.toNat / 1024 % 4) + 4096 * (v.toNat % 8))
            w := false, ioLatch := v }, c)) ∧
    (p.w = false →
      p.regWrite c 6 v =
        ({ p with t := BitVec.ofNat 15 (p.t.toNat % 256 + 256 * (v.toNat % 64)), w := true, ioLatch := v }, c)) ∧
    (p.w = true →
      p.regWrite c 6 v =
        ({ p with
            t := BitVec.ofNat 15 (256 * (p.t.toNat / 256) + v.toNat)
            v := BitVec.ofNat 15 (256 * (p.t.toNat / 256) + v.toNat), w := false, ioLatch := v }, c))

/-- PPUDATA (R469 to R471): reads are one behind below 0x3F00, direct in the palette with the latch's two high bits and
the buffer refilled from the nametable underneath; writes reach the PPU address space; both move `v` by 1 or 32
modulo 0x8000. -/
def Obligations.PpuDataAccess : Prop :=
  (∀ (p : Ppu) (c : Cart),
    let a : BitVec 14 := BitVec.ofNat 14 (p.v.toNat % 0x4000)
    let next : BitVec 15 := BitVec.ofNat 15 ((p.v.toNat + if p.ctrl.toNat.testBit 2 then 32 else 1) % 0x8000)
    (a.toNat < 0x3F00 →
      p.regRead c 7 = (p.readBuffer, { p with readBuffer := p.busRead c a, v := next })) ∧
    (0x3F00 ≤ a.toNat →
      (p.regRead c 7).1.toNat = 64 * (p.ioLatch.toNat / 64) + (p.busRead c a).toNat % 64 ∧
      (p.regRead c 7).2 =
        { p with readBuffer := p.busRead c (BitVec.ofNat 14 (a.toNat - 0x1000)), v := next })) ∧
  (∀ (p : Ppu) (c : Cart) (v : Byte),
    let a : BitVec 14 := BitVec.ofNat 14 (p.v.toNat % 0x4000)
    let next : BitVec 15 := BitVec.ofNat 15 ((p.v.toNat + if p.ctrl.toNat.testBit 2 then 32 else 1) % 0x8000)
    p.regWrite c 7 v = ({ (p.busWrite c a v).1 with v := next, ioLatch := v }, (p.busWrite c a v).2))

/-- The write toggle and the latch (R473, R475): the toggle flips on every write to PPUSCROLL or PPUADDR and is cleared
by every PPUSTATUS read; the latch is set by every register write; no other register access, no dot and, for the
latch, no reset changes them, and machine reset clears the toggle. -/
def Obligations.WriteToggleAndLatch : Prop :=
  (∀ (p : Ppu) (c : Cart) (r : BitVec 3) (v : Byte),
    (p.regWrite c r v).1.w = (if r = 5 ∨ r = 6 then !p.w else p.w) ∧ (p.regWrite c r v).1.ioLatch = v) ∧
  (∀ (p : Ppu) (c : Cart) (r : BitVec 3),
    (p.regRead c r).2.w = (if r = 2 then false else p.w) ∧ (p.regRead c r).2.ioLatch = p.ioLatch) ∧
  (∀ (p : Ppu) (c : Cart), (p.step c).1.w = p.w ∧ (p.step c).1.ioLatch = p.ioLatch) ∧
  (∀ s : State, (machineReset s).ppu.w = false ∧ (machineReset s).ppu.ioLatch = s.ppu.ioLatch)

/-! The PPU's dots. -/

/-- VBlank and NMI (R461, R501, R502): VBlank is set by the dot at (241, 1) and cleared, with the two sprite flags, by
the dot at (261, 1); between, the sprite flags stay set. The dot reports an NMI when one was requested or when VBlank
starts with PPUCTRL bit 7 set, and withdraws the request. -/
def Obligations.VblankAndNmiReport : Prop :=
  ∀ (p : Ppu) (c : Cart),
    let q := p.step c
    let start := decide (p.scanline = 241 ∧ p.dot = 1)
    let stop := decide (p.scanline = 261 ∧ p.dot = 1)
    q.1.vblank = (if start then true else if stop then false else p.vblank) ∧
    q.2.nmi = (p.nmiRequest || (start && decide (128 ≤ p.ctrl.toNat))) ∧
    q.1.nmiRequest = false ∧
    (stop = true → q.1.sprite0Hit = false ∧ q.1.spriteOverflow = false) ∧
    (stop = false → (p.sprite0Hit = true → q.1.sprite0Hit = true) ∧
      (p.spriteOverflow = true → q.1.spriteOverflow = true))

/-- The position and the frame (R503): each dot moves one dot on, a line has 341 dots and a frame 262 lines, and from
(0, 0) the whole frame takes 89342 dots, or 89341 under the odd-frame skip, the last of which and no other raises
frame-ready. The frame count of a skipped frame is left out (log entry 9). -/
def Obligations.FrameTakes89342Dots : Prop :=
  (∀ (p : Ppu) (c : Cart),
    let q := p.step c
    let skip := Config.oddFrameSkip && p.rendering && decide (p.frame % 2 = 1 ∧ p.scanline = 261 ∧ p.dot = 339)
    if skip = true then q.1.dot = 0 ∧ q.1.scanline = 0 ∧ q.2.frameReady = true
    else if p.dot = 340 ∧ p.scanline = 261 then
      q.1.dot = 0 ∧ q.1.scanline = 0 ∧ q.1.frame = p.frame + 1 ∧ q.2.frameReady = true
    else if p.dot = 340 then
      q.1.dot = 0 ∧ q.1.scanline = p.scanline + 1 ∧ q.1.frame = p.frame ∧ q.2.frameReady = false
    else
      q.1.dot = p.dot + 1 ∧ q.1.scanline = p.scanline ∧ q.1.frame = p.frame ∧ q.2.frameReady = false) ∧
  (∀ (p : Ppu) (c : Cart), p.scanline = 0 → p.dot = 0 →
    let n := if (Config.oddFrameSkip && p.rendering && decide (p.frame % 2 = 1)) = true then 89341 else 89342
    let q := dots c n p
    q.2 = [n] ∧ q.1.scanline = 0 ∧ q.1.dot = 0 ∧ (n = 89342 → q.1.frame = p.frame + 1))

/-- Pixel output and the sprite-zero hit (R524, R530): the dot that shows column `x` of a visible line writes that pixel
and no other, the emphasis bits over the colour at the palette address the priority rules choose, greyscale applied;
every other dot leaves the frame buffer alone and does not set the hit, which only the dot at (261, 1) clears (R502).
`q` is the PPU after the dot's background and sprite actions. -/
def Obligations.PixelOutput : Prop :=
  (∀ (p : Ppu) (c : Cart), p.frameBuffer.wf = true → p.scanline ≤ 239 → 1 ≤ p.dot → p.dot ≤ 256 →
    let x := p.dot - 1
    let q := p.renderDot c
    let bg := q.bgPixel x
    let sp := q.spritePixel x
    let pa : Nat :=
      if bg.pix = 0 ∧ sp.pix = 0 then 0x3F00
      else if bg.pix = 0 ∨ (sp.pix ≠ 0 ∧ sp.behind = false) then 0x3F00 + 4 * sp.pal.toNat + sp.pix.toNat
      else 0x3F00 + 4 * bg.pal.toNat + bg.pix.toNat
    let colour := (q.busRead c (BitVec.ofNat 14 pa)).toNat &&& (if p.mask.toNat.testBit 0 then 0x30 else 0x3F)
    let after := (p.step c).1
    (after.frameBuffer.read (256 * p.scanline + x)).toNat = 64 * (p.mask.toNat / 32) + colour ∧
    (∀ k : Nat, k ≠ 256 * p.scanline + x → after.frameBuffer.read k = p.frameBuffer.read k) ∧
    after.sprite0Hit =
      (p.sprite0Hit ||
        (sp.zero && decide (bg.pix ≠ 0 ∧ sp.pix ≠ 0 ∧ x ≠ 255) && p.mask.toNat.testBit 3 &&
          p.mask.toNat.testBit 4))) ∧
  (∀ (p : Ppu) (c : Cart), (239 < p.scanline ∨ p.dot = 0 ∨ 256 < p.dot) →
    (p.step c).1.frameBuffer = p.frameBuffer ∧
      (p.step c).1.sprite0Hit = (p.sprite0Hit && !decide (p.scanline = 261 ∧ p.dot = 1)))

/-- The pixels the two pipelines offer (R516, R523): the background pixel from bit 15 - fine X of the shift registers,
hidden by its enable and left-column bits; the sprite pixel of the first slot, in order, that is opaque in the
column. -/
def Obligations.PixelSources : Prop :=
  (∀ (p : Ppu) (x : Nat),
    let k := 15 - p.x.toNat
    if p.mask.toNat.testBit 3 = true ∧ (p.mask.toNat.testBit 1 = true ∨ 8 ≤ x) then
      (p.bgPixel x).pix.toNat = 2 * bitNat (p.bg.sHi.toNat.testBit k) + bitNat (p.bg.sLo.toNat.testBit k) ∧
      (p.bgPixel x).pal.toNat = 2 * bitNat (p.bg.aHi.toNat.testBit k) + bitNat (p.bg.aLo.toNat.testBit k)
    else (p.bgPixel x).pix = 0 ∧ (p.bgPixel x).pal = 0) ∧
  (∀ (p : Ppu) (x : Nat),
    let shown := p.mask.toNat.testBit 4 = true ∧ (p.mask.toNat.testBit 2 = true ∨ 8 ≤ x)
    let pattern (sl : Slot) : Nat :=
      if sl.x.toNat ≤ x ∧ x ≤ sl.x.toNat + 7 then
        2 * bitNat (sl.hi.toNat.testBit (sl.x.toNat + 7 - x)) + bitNat (sl.lo.toNat.testBit (sl.x.toNat + 7 - x))
      else 0
    (∀ (i : Nat) (sl : Slot), shown → i < p.spr.count → p.spr.slots[i]? = some sl → pattern sl ≠ 0 →
      (∀ (j : Nat) (sl' : Slot), j < i → p.spr.slots[j]? = some sl' → pattern sl' = 0) →
      (p.spritePixel x).pix.toNat = pattern sl ∧
      (p.spritePixel x).pal.toNat = 4 + sl.attr.toNat % 4 ∧
      (p.spritePixel x).behind = sl.attr.toNat.testBit 5 ∧
      (p.spritePixel x).zero = (decide (i = 0) && p.spr.hasZero)) ∧
    ((¬shown ∨ ∀ (i : Nat) (sl : Slot), i < p.spr.count → p.spr.slots[i]? = some sl → pattern sl = 0) →
      (p.spritePixel x).pix = 0 ∧ (p.spritePixel x).zero = false))

/-- The scroll increments and the background pipeline that applies them (R510 to R515). First the increments (R512), on
the numbers of coarse X, coarse Y, nametable bits and fine Y. Then what any dot of a render line does with rendering
on: at dots 2-257 and 321-337 the shift registers shift (R513), and by the phase `(dot - 1) mod 8` their low bytes are
reloaded and the nametable byte fetched (0), the attribute bits (2, R511), the low (4) and the high (6) pattern byte
fetched, coarse X incremented (7); Y is incremented at dot 256, the horizontal bits of `t` copied at 257, the vertical
bits at 280-304 of line 261 (R510, R514). With rendering off, or on any other line, no dot moves `v`, fetches anything,
shifts the background registers or touches the OAM address (R500, R515). -/
def Obligations.ScrollIncrements : Prop :=
  (∀ v : BitVec 15,
      let n := v.toNat
      let cx := n % 32
      let cy := n / 32 % 32
      let nx := n / 1024 % 2
      let ny := n / 2048 % 2
      let fy := n / 4096
      (incX v).toNat =
        (if cx = 31 then 0 else cx + 1) + 32 * cy + 1024 * (if cx = 31 then 1 - nx else nx) + 2048 * ny + 4096 * fy ∧
      (incY v).toNat =
        cx + 32 * (if fy < 7 then cy else if cy = 29 ∨ cy = 31 then 0 else cy + 1) + 1024 * nx +
          2048 * (if fy = 7 ∧ cy = 29 then 1 - ny else ny) + 4096 * (if fy < 7 then fy + 1 else 0)) ∧
  (∀ (p : Ppu) (c : Cart), p.rendering = true → p.renderLine = true →
      let q := (p.step c).1
      let d := p.dot
      let fetches := (2 ≤ d ∧ d ≤ 257) ∨ (321 ≤ d ∧ d ≤ 337)
      let phase := (d - 1) % 8
      let n := p.v.toNat
      let cx := n % 32
      let cy := n / 32 % 32
      let table := if p.ctrl.toNat.testBit 4 then 0x1000 else 0
      let row := table + 16 * p.bg.nt.toNat + n / 4096
      let read (a : Nat) : Byte := p.busRead c (BitVec.ofNat 14 a)
      let shifted (r : BitVec 16) (low : Nat) : Nat :=
        let twice := 2 * r.toNat % 65536
        if fetches then if phase = 0 then twice / 256 * 256 + low else twice else r.toNat
      q.bg.sLo.toNat = shifted p.bg.sLo p.bg.lo.toNat ∧
      q.bg.sHi.toNat = shifted p.bg.sHi p.bg.hi.toNat ∧
      q.bg.aLo.toNat = shifted p.bg.aLo (255 * (p.bg.attr.toNat % 2)) ∧
      q.bg.aHi.toNat = shifted p.bg.aHi (255 * (p.bg.attr.toNat / 2)) ∧
      q.bg.nt = (if fetches ∧ phase = 0 then read (0x2000 + n % 4096) else p.bg.nt) ∧
      q.bg.attr.toNat =
        (if fetches ∧ phase = 2 then
          (read (0x23C0 + 1024 * (n / 1024 % 4) + 8 * (cy / 4) + cx / 4)).toNat /
            2 ^ (4 * (cy / 2 % 2) + 2 * (cx / 2 % 2)) % 4
        else p.bg.attr.toNat) ∧
      q.bg.lo = (if fetches ∧ phase = 4 then read row else p.bg.lo) ∧
      q.bg.hi = (if fetches ∧ phase = 6 then read (row + 8) else p.bg.hi) ∧
      (if d = 256 then q.v = incY (incX p.v)
      else if d = 257 then
        q.v.toNat = p.t.toNat % 32 + 32 * cy + 1024 * (p.t.toNat / 1024 % 2) + 2048 * (n / 2048)
      else if p.scanline = 261 ∧ 280 ≤ d ∧ d ≤ 304 then
        q.v.toNat = cx + 32 * (p.t.toNat / 32 % 32) + 1024 * (n / 1024 % 2) + 2048 * (p.t.toNat / 2048)
      else q.v = if fetches ∧ phase = 7 then incX p.v else p.v)) ∧
  (∀ (p : Ppu) (c : Cart), p.rendering = false ∨ p.renderLine = false →
      (p.step c).1.v = p.v ∧ (p.step c).1.bg = p.bg ∧ (p.step c).1.oamAddr = p.oamAddr ∧
        (p.step c).1.spr.slots = p.spr.slots ∧ (p.step c).1.t = p.t)

/-- Sprite evaluation and fetch (R520 to R522), at dot 257 of a render line with rendering on: the OAM address is
cleared; on the pre-render line no sprite remains; on a visible line the first eight sprites in range, in OAM order,
fill the slots with their X, attributes and flipped pattern planes, sprite 0 is noted, and a ninth sets the overflow
flag. With rendering off the line is cleared and the OAM address stays. Every other dot, and every dot of another line,
leaves the slots, their count, the sprite-zero mark and the OAM address alone and does not set the overflow flag. -/
def Obligations.SpriteEvaluation : Prop :=
  (∀ (p : Ppu) (c : Cart), p.rendering = true → p.dot = 257 → p.scanline = 261 →
    (p.step c).1.oamAddr = 0 ∧ (p.step c).1.spr.count = 0 ∧ (p.step c).1.spr.hasZero = false) ∧
  (∀ (p : Ppu) (c : Cart), p.rendering = false → p.dot = 257 → p.renderLine = true →
    (p.step c).1.oamAddr = p.oamAddr ∧ (p.step c).1.spr.count = 0 ∧ (p.step c).1.spr.hasZero = false) ∧
  (∀ (p : Ppu) (c : Cart), p.rendering = true → p.dot = 257 → p.scanline ≤ 239 →
    let height := if p.ctrl.toNat.testBit 5 then 16 else 8
    let y (n : Nat) := (p.oam.read (4 * n)).toNat
    let found := (List.range 64).filter fun n => decide (y n ≤ p.scanline ∧ p.scanline - y n < height)
    let q := (p.step c).1
    q.oamAddr = 0 ∧ q.spr.count = min 8 found.length ∧
    q.spr.hasZero = decide (0 ∈ found.take 8) ∧
    q.spriteOverflow = (p.spriteOverflow || decide (8 < found.length)) ∧
    (∀ k n : Nat, (found.take 8)[k]? = some n →
      let tile := (p.oam.read (4 * n + 1)).toNat
      let attr := p.oam.read (4 * n + 2)
      let row := p.scanline - y n
      let r := if attr.toNat.testBit 7 then height - 1 - row else row
      let addr :=
        if height = 16 then 0x1000 * (tile % 2) + 16 * (tile - tile % 2 + r / 8) + r % 8
        else (if p.ctrl.toNat.testBit 3 then 0x1000 else 0) + 16 * tile + r
      let plane (a : Nat) : Byte :=
        let b := p.busRead c (BitVec.ofNat 14 a)
        if attr.toNat.testBit 6 then b.reverse else b
      q.spr.slots[k]? =
        some { x := p.oam.read (4 * n + 3), attr := attr, lo := plane addr, hi := plane (addr + 8) })) ∧
  (∀ (p : Ppu) (c : Cart), p.dot ≠ 257 ∨ p.renderLine = false →
    (p.step c).1.spr = p.spr ∧ (p.step c).1.oamAddr = p.oamAddr ∧
      ((p.step c).1.spriteOverflow = true → p.spriteOverflow = true))

/-! Controllers, cartridge images, reset. -/

/-- The controller protocol (52_controller.md R601 to R604, R607; the property R609 infers from them): after writing 1
then 0 to 0x4016, eight reads of a port return in bit 0 the answers of the input source for A, B, Select, Start, Up,
Down, Left, Right, one draw each, and a ninth returns 1; while the strobe is held every read returns A and the cursor
stays 0. Bits 7 to 1 are CTRL_OPEN_BUS. For every answer the input source may give (log entries 5 and 7). -/
def Obligations.ControllerProtocol : Prop :=
  (∀ s : State,
    let s2 := cpuWrite 0x4016 0 (cpuWrite 0x4016 1 s)
    let answers (port : Port) : List Bool :=
      ([Button.a, .b, .select, .start, .up, .down, .left, .right].mapIdx fun k button =>
        Config.isPressed (s.host.draws + k) port button) ++ [true]
    (readMany 0x4016 9 s2).1.map (fun b => bit b 0) = answers .one ∧
    (readMany 0x4017 9 s2).1.map (fun b => bit b 0) = answers .two ∧
    (readMany 0x4016 9 s2).2.host.draws = s.host.draws + 8) ∧
  (∀ (s : State) (n : Nat),
    let s1 := cpuWrite 0x4016 1 s
    (readMany 0x4016 n s1).1.map (fun b => bit b 0) =
        (List.range n).map (fun k => Config.isPressed (s.host.draws + k) .one .a) ∧
      (readMany 0x4016 n s1).2.ctl1.cursor = 0 ∧
      (readMany 0x4017 n s1).1.map (fun b => bit b 0) =
        (List.range n).map (fun k => Config.isPressed (s.host.draws + k) .two .a) ∧
      (readMany 0x4017 n s1).2.ctl2.cursor = 0) ∧
  (∀ (s : State) (a : Word), a = 0x4016 ∨ a = 0x4017 → peek s a &&& 0xFE = Config.ctrlOpenBus &&& 0xFE)

/-- `load` (51_cartridge.md R552 to R554): the checks in their order, and what an accepted image gives: the mapper, the
mirroring, PRG ROM, CHR ROM or RAM, and PRG RAM with the trainer at 0x1000-0x11FF of it. -/
def Obligations.LoadAcceptsAndRefuses : Prop :=
  ∀ (init : PowerOnContents) (img : List Byte), init.wf = true →
    let b (k : Nat) : Byte := img.getD k 0
    let np := (b 4).toNat
    let nc := (b 5).toNat
    let f6 := (b 6).toNat
    let id := 16 * ((b 7).toNat / 16) + f6 / 16
    let trainer := f6.testBit 2
    let off := if trainer then 528 else 16
    if img.length < 16 then load init img = .error .truncated
    else if ¬(b 0 = 0x4E ∧ b 1 = 0x45 ∧ b 2 = 0x53 ∧ b 3 = 0x1A) then load init img = .error .badMagic
    else if np = 0 then load init img = .error .malformedHeader
    else if id ∉ [0, 2, 3] then load init img = .error (.unsupportedMapper (BitVec.ofNat 8 id))
    else if img.length < off + 16384 * np + 8192 * nc then load init img = .error .truncated
    else
      ∃ c : Cart, load init img = .ok c ∧
        c.mapper = (if id = 0 then .nrom else if id = 2 then .uxrom else .cnrom) ∧
        c.mirroring = (if f6.testBit 3 then .fourScreen else if f6.testBit 0 then .vertical else .horizontal) ∧
        c.prgBanks = np ∧ (∀ k : Nat, k < 16384 * np → c.prgRom.read k = b (off + k)) ∧
        c.chrIsRam = decide (nc = 0) ∧
        (nc = 0 → c.chrBanks = 1 ∧ c.chr = init.chrRam) ∧
        (nc ≠ 0 → c.chrBanks = nc ∧ ∀ k : Nat, k < 8192 * nc → c.chr.read k = b (off + 16384 * np + k)) ∧
        (∀ k : Nat,
          c.prgRam.read k =
            if trainer = true ∧ 0x1000 ≤ k ∧ k < 0x1200 then b (16 + (k - 0x1000)) else init.prgRam.read k) ∧
        c.fsVram = init.fsVram ∧ c.prgBank = 0 ∧ c.chrBank = 0

/-- The round trip of the reset vector (inferred by R580 from R552 and R567): after power-on with a mapper 0 image
without trainer, the reads of 0xFFFC and 0xFFFD return the image's bytes at the mapped offset for one bank and for
two, and PC is the word they make (70_reset_and_hazards.md R703). -/
def Obligations.ResetVectorComesFromImage : Prop :=
  ∀ (init : PowerOnContents) (img : List Byte) (s : State), powerOnImage init img = .ok s →
    mapperId (img.getD 6 0) (img.getD 7 0) = 0 → (img.getD 6 0).toNat.testBit 2 = false →
    (img.getD 4 0 = 1 →
      peek s 0xFFFC = img.getD (16 + 0x3FFC) 0 ∧ peek s 0xFFFD = img.getD (16 + 0x3FFD) 0) ∧
    (img.getD 4 0 = 2 →
      peek s 0xFFFC = img.getD (16 + 0x7FFC) 0 ∧ peek s 0xFFFD = img.getD (16 + 0x7FFD) 0) ∧
    s.cpu.pc.toNat = 256 * (peek s 0xFFFD).toNat + (peek s 0xFFFC).toNat

/-- `cpu.reset()`, power-on and machine reset (60_exceptions.md R661, 70_reset_and_hazards.md R700, R701): the CPU
registers take their reset values, PC the word at 0xFFFC, 7 cycles are counted, and nothing else changes; power-on has
no machine when `load` fails, and else gives the CPU, the RAM, every field of the PPU, the controllers and the
Synchronizer their power-on values beside the cartridge of the image; machine reset clears the PPU registers of
10_state.md R52's reset column, the debt, the pending NMI and the IRQ line (the row of R702), and leaves everything
else. What it does to the model's own counters and to the host's side (log entries 11, 13) is left out. -/
def Obligations.ResetSequences : Prop :=
  (∀ s : State,
    cpuReset s =
      { s with
        cpu :=
          { a := 0x00, x := 0x00, y := 0x00, sp := 0xFD
            pc := BitVec.ofNat 16 (256 * (peek s 0xFFFD).toNat + (peek s 0xFFFC).toNat)
            p := { n := false, v := false, d := false, i := true, z := false, c := false }
            halted := false, cycles := s.cpu.cycles + 7, irqLine := s.cpu.irqLine } }) ∧
  (∀ (init : PowerOnContents) (img : List Byte),
    (∀ e : LoadError, load init img = .error e → powerOnImage init img = .error e) ∧
    (∀ cart : Cart, load init img = .ok cart → powerOnImage init img = .ok (State.powerOn init cart))) ∧
  (∀ (init : PowerOnContents) (cart : Cart),
    let s := State.powerOn init cart
    s.cpu =
        { a := 0x00, x := 0x00, y := 0x00, sp := 0xFD
          pc := BitVec.ofNat 16 (256 * (peek s 0xFFFD).toNat + (peek s 0xFFFC).toNat)
          p := { n := false, v := false, d := false, i := true, z := false, c := false }
          halted := false, cycles := 7, irqLine := false } ∧
      s.ram = init.ram ∧
      s.ppu =
        { ctrl := 0x00, mask := 0x00, vblank := false, sprite0Hit := false, spriteOverflow := false
          oamAddr := 0x00, v := 0, t := 0, x := 0, w := false, readBuffer := 0x00, ioLatch := 0x00
          nmiRequest := false, oam := init.oam, palette := init.palette, ciram := init.vram
          scanline := 0, dot := 0, frame := 0
          bg := { nt := 0, attr := 0, lo := 0, hi := 0, sLo := 0, sHi := 0, aLo := 0, aHi := 0 }
          spr :=
            { count := 0, hasZero := false
              slots := List.replicate 8 { x := 0, attr := 0, lo := 0, hi := 0 } }
          frameBuffer := [] } ∧
      (∀ k : Nat, s.ppu.frameBuffer.read k = 0) ∧ s.cart = cart ∧
      s.ctl1 = { cursor := 0, strobe := false } ∧ s.ctl2 = { cursor := 0, strobe := false } ∧
      s.sync.debt = 0 ∧ s.sync.nmiPending = false) ∧
  (∀ s : State,
    machineReset s =
      cpuReset
        { s with
          cpu := { s.cpu with irqLine := false }
          ppu :=
            { s.ppu with
              ctrl := 0x00, mask := 0x00, t := 0, x := 0, w := false, readBuffer := 0x00, nmiRequest := false }
          sync :=
            { s.sync with
              debt := 0, nmiPending := false
              reported := (machineReset s).sync.reported, dots := (machineReset s).sync.dots }
          host := (machineReset s).host })

/-! Interrupts. -/

/-- NMI and IRQ entry (60_exceptions.md R663, R665, R671) when not halted: the return address high byte first, then the
status with bit 5 set and B clear, at S, S - 1, S - 2 in page 1 with wrapping; S drops by 3, I is set, D stays, PC
comes from 0xFFFA or 0xFFFE, 7 cycles. Halted, neither does anything. -/
def Obligations.InterruptEntry : Prop :=
  (∀ s : State, s.cpu.halted = true → nmi s = s ∧ irq s = s) ∧
  (∀ s : State, s.cpu.halted = false →
    let entered (lo hi : Word) : State :=
      { s with
        ram :=
          ((s.ram.write (256 + s.cpu.sp.toNat) (BitVec.ofNat 8 (s.cpu.pc.toNat / 256))).write
              (256 + (s.cpu.sp - 1).toNat) (BitVec.ofNat 8 (s.cpu.pc.toNat % 256))).write
            (256 + (s.cpu.sp - 2).toNat) (s.cpu.p.toByte false)
        cpu :=
          { s.cpu with
            sp := s.cpu.sp - 3
            p := { s.cpu.p with i := true }
            pc := BitVec.ofNat 16 (256 * (peek s hi).toNat + (peek s lo).toNat)
            cycles := s.cpu.cycles + 7 } }
    nmi s = entered 0xFFFA 0xFFFB ∧ irq s = entered 0xFFFE 0xFFFF) ∧
  (∀ (p : Status) (b : Bool),
    (p.toByte b).toNat =
      128 * bitNat p.n + 64 * bitNat p.v + 32 + 16 * bitNat b + 8 * bitNat p.d + 4 * bitNat p.i + 2 * bitNat p.z +
        bitNat p.c)

/-- RTI undoes an interrupt entry (R672): run straight after NMI or IRQ entry it restores PC, S and every stored flag,
I included, and leaves only the three stack bytes and 13 cycles behind; after BRK it returns to BRK's address + 2. -/
def Obligations.RtiUndoesEntry : Prop :=
  (∀ s : State, s.ram.wf = true → s.cpu.halted = false →
    exec .rti (nmi s) = .next { nmi s with cpu := { s.cpu with cycles := s.cpu.cycles + 13 } } ∧
    exec .rti (irq s) = .next { irq s with cpu := { s.cpu with cycles := s.cpu.cycles + 13 } }) ∧
  (∀ s t : State, s.ram.wf = true → exec .brk s = .next t →
    exec .rti t = .next { t with cpu := { s.cpu with pc := s.cpu.pc + 1, cycles := s.cpu.cycles + 13 } })

/-- What a step does at an instruction boundary, first of all the priority of R668: the host's reset between two frames
(70_reset_and_hazards.md R701), taken whole and its request consumed (log entry 11); else the owed dots are drained
first, and a frame they complete is handed over; else a pending NMI is consumed and taken, whatever I is; else an IRQ
when the line is up and I is 0; else the CPU steps (53_synchronizer.md R632, R633). Then what draining and owing are
(R632, R634, R636): one PPU step and one dot of debt less at a time, a reported NMI recorded, stopping at frame-ready
with the rest of the debt kept; after the action three dots are owed for each cycle it counted, they are drained, and a
completed frame is handed over. A step is one iteration of `run_frame`'s loop (log entry 10), and the two counters of
R638 and the record of the frames handed over are the model's (log entries 12 and 13). -/
def Obligations.InterruptPriority : Prop :=
  let handOver (u : State) : State :=
    { u with
      sync := { u.sync with inFrame := false }
      host := { u.host with presented := u.host.presented + 1, lastFrame := u.ppu.frameBuffer } }
  (∀ s : State, s.host.resetRequested = true → s.sync.inFrame = false →
    step s = .next (machineReset s) ∧ (machineReset s).host = { s.host with resetRequested := false }) ∧
  (∀ s : State, s.host.resetRequested = false ∨ s.sync.inFrame = true →
    let o := (drain s).1
    ((drain s).2 = true → step s = .next (handOver o)) ∧
    ((drain s).2 = false → o.sync.nmiPending = true →
      step s = .next (afterAction o (nmi { o with sync := { o.sync with nmiPending := false } }))) ∧
    ((drain s).2 = false → o.sync.nmiPending = false → o.cpu.irqLine = true → o.cpu.p.i = false →
      step s = .next (afterAction o (irq o))) ∧
    ((drain s).2 = false → o.sync.nmiPending = false → (o.cpu.irqLine = false ∨ o.cpu.p.i = true) →
      ∃ t, cpuStep o = .next t ∧ step s = .next (afterAction o t))) ∧
  (∀ s : State, s.sync.debt = 0 → drain s = (s, false)) ∧
  (∀ s : State, 0 < s.sync.debt →
    let dot := s.ppu.step s.cart
    let s1 :=
      { s with
        ppu := dot.1
        sync :=
          { s.sync with
            debt := s.sync.debt - 1, dots := s.sync.dots + 1, nmiPending := s.sync.nmiPending || dot.2.nmi } }
    drain s = if dot.2.frameReady then (s1, true) else drain s1) ∧
  (∀ before after : State,
    let c := after.cpu.cycles - before.cpu.cycles
    let owing :=
      { after with
        sync :=
          { after.sync with
            debt := after.sync.debt + 3 * c, reported := after.sync.reported + c, inFrame := true } }
    afterAction before after = if (drain owing).2 then handOver (drain owing).1 else (drain owing).1)

/-! The Synchronizer and invariants of every step. -/

/-- EVERY STEP KEEPS THE CLOCK EXACT (R638): `ppu_steps + sync.debt = 3 * C`, whatever the state. -/
def Obligations.StepKeepsClockExact : Prop :=
  ∀ s t : State, s.clockExact → step s = .next t → t.clockExact

/-- Every step keeps the debt bounded (R635): none is left within a frame, and after a frame at most what one action can
owe less one dot (the bound is the model's largest action, log entry 18). -/
def Obligations.StepKeepsDebtBounded : Prop :=
  ∀ s t : State, s.debtBounded → step s = .next t → t.debtBounded

/-- EVERY STEP KEEPS THE STATE'S INVARIANT: canonical memories within their sizes, positions, cursors and sprite counts
in the ranges of 10_state.md R51 to R60. -/
def Obligations.StepKeepsInvariant : Prop :=
  ∀ s t : State, s.inv = true → step s = .next t → t.inv = true

/-- The invariant, the clock relation and the debt bound hold at reset and at every power-on. The power-on contents and
the cartridge at `State.reset` are the model's choice (log entries 1 and 2). -/
def Obligations.InvariantsHoldAtReset : Prop :=
  State.reset.inv = true ∧ State.reset.clockExact ∧ State.reset.debtBounded ∧
  (∀ (init : PowerOnContents) (cart : Cart), init.wf = true → cart.inv = true →
    (State.powerOn init cart).inv = true ∧ (State.powerOn init cart).clockExact ∧
      (State.powerOn init cart).debtBounded)

/-- EVERY STEP KEEPS THE CARTRIDGE'S FIXED PARTS (51_cartridge.md R556, 20_memory.md R134): PRG ROM, its size, the
mapper and the mirroring never change, CHR ROM never changes, the PRG bank register changes under mapper 2 alone and
the CHR bank register under mapper 3 alone, and a machine reset changes nothing of the cartridge. -/
def Obligations.StepKeepsRom : Prop :=
  (∀ s t : State, step s = .next t →
    t.cart.prgRom = s.cart.prgRom ∧ t.cart.prgBanks = s.cart.prgBanks ∧ t.cart.mapper = s.cart.mapper ∧
      t.cart.mirroring = s.cart.mirroring ∧ t.cart.chrIsRam = s.cart.chrIsRam ∧
      t.cart.chrBanks = s.cart.chrBanks ∧ (s.cart.chrIsRam = false → t.cart.chr = s.cart.chr) ∧
      (s.cart.mapper ≠ .uxrom → t.cart.prgBank = s.cart.prgBank) ∧
      (s.cart.mapper ≠ .cnrom → t.cart.chrBank = s.cart.chrBank)) ∧
  (∀ s : State, (machineReset s).cart = s.cart)

/-- Frames (R636): a step hands over at most one frame, and when it does the PPU stands at (0, 0) of the next frame, the
frame handed over is its frame buffer, and `run_frame` has returned. -/
def Obligations.FramesArePresentedWhole : Prop :=
  ∀ s t : State, step s = .next t →
    (t.host.presented = s.host.presented ∧ t.host.lastFrame = s.host.lastFrame) ∨
    (t.host.presented = s.host.presented + 1 ∧ t.host.lastFrame = t.ppu.frameBuffer ∧ t.sync.inFrame = false ∧
      t.ppu.scanline = 0 ∧ t.ppu.dot = 0)

/-- NOTHING STOPS THE MACHINE (60_exceptions.md R670): from every state, every step answers a next state, so a run of
any length does. -/
def Obligations.EveryRunIsSafe : Prop :=
  (∀ s : State, ∃ t : State, step s = .next t) ∧ ∀ s : State, SafeRun s
end

