-- ==== Sys2Proof/Laws/Exec.lean ====
section
/-! SUPPORT. What `exec` does, said once: the meaning of an instruction is the meaning of its mnemonic on its operand
at the cost of its row (30_encoding.md R175, R177), and its operand has one of the modes its mnemonic takes. Lemmas
about instructions rewrite with `exec_eq` instead of splitting over the 223 constructors. -/

namespace Sys2Proof.Machine

/-- A read instruction by its operand. -/
def readBy (f : Byte → Cpu → Cpu) (o : Operand) (cost : Cost) (s : State) : State :=
  match o with
  | .imm m => readInstr f (.imm m) cost s
  | .mem p => readInstr f (.mem p) cost s
  | _ => s

/-- A write instruction by its operand. -/
def writeBy (val : Cpu → Byte) (o : Operand) (cost : Cost) (s : State) : State :=
  match o with
  | .mem p => writeInstr val p cost s
  | _ => s

/-- A read-modify-write instruction by its operand. -/
def modifyBy (f : Byte → Cpu → Modified) (o : Operand) (cost : Cost) (s : State) : State :=
  match o with
  | .mem p => modifyInstr f p cost s
  | .acc => modifyAcc f cost s
  | _ => s

/-- A high-byte store by its operand. -/
def highBy (before : Cpu → Cpu) (val : Byte → Cpu → Byte) (o : Operand) (cost : Cost) (s : State) : State :=
  match o with
  | .mem p => shStore before val p cost s
  | _ => s

/-- A branch by its operand. -/
def branchBy (cond : Status → Bool) (o : Operand) (cost : Cost) (s : State) : State :=
  match o with
  | .rel d => branchInstr cond d cost s
  | _ => s

/-- A no-operation by its operand. -/
def nopBy (o : Operand) (cost : Cost) (s : State) : State :=
  match o with
  | .imm m => readInstr effectNop (.imm m) cost s
  | .mem p => readInstr effectNop (.mem p) cost s
  | _ => registerInstr id cost s

/-- A jump or a call by its operand. -/
def jumpBy (mn : Mnemonic) (o : Operand) (cost : Cost) (s : State) : State :=
  match mn, o with
  | .jsr, .mem (.abs a) => ((push16 (s.cpu.pc - 1) s).setPc a).charge cost.base
  | _, .mem (.abs a) => (s.setPc a).charge cost.base
  | _, .ind p =>
    let r := readIndirect p s
    (r.2.setPc r.1).charge cost.base
  | _, _ => s

/-- The meaning of a mnemonic on an operand, at a cost. -/
def semantics (mn : Mnemonic) (o : Operand) (cost : Cost) (s : State) : State :=
  match mn with
  | .lda => readBy effectLda o cost s
  | .ldx => readBy effectLdx o cost s
  | .ldy => readBy effectLdy o cost s
  | .adc => readBy effectAdc o cost s
  | .sbc => readBy effectSbc o cost s
  | .and => readBy effectAnd o cost s
  | .ora => readBy effectOra o cost s
  | .eor => readBy effectEor o cost s
  | .cmp => readBy effectCmp o cost s
  | .cpx => readBy effectCpx o cost s
  | .cpy => readBy effectCpy o cost s
  | .bit => readBy effectBit o cost s
  | .lax => readBy effectLax o cost s
  | .las => readBy effectLas o cost s
  | .anc => readBy effectAnc o cost s
  | .alr => readBy effectAlr o cost s
  | .arr => readBy effectArr o cost s
  | .sbx => readBy effectSbx o cost s
  | .ane => readBy effectAne o cost s
  | .lxa => readBy effectLxa o cost s
  | .sta => writeBy Cpu.a o cost s
  | .stx => writeBy Cpu.x o cost s
  | .sty => writeBy Cpu.y o cost s
  | .sax => writeBy (fun c => c.a &&& c.x) o cost s
  | .asl => modifyBy effectAsl o cost s
  | .lsr => modifyBy effectLsr o cost s
  | .rol => modifyBy effectRol o cost s
  | .ror => modifyBy effectRor o cost s
  | .inc => modifyBy effectInc o cost s
  | .dec => modifyBy effectDec o cost s
  | .slo => modifyBy effectSlo o cost s
  | .rla => modifyBy effectRla o cost s
  | .sre => modifyBy effectSre o cost s
  | .rra => modifyBy effectRra o cost s
  | .dcp => modifyBy effectDcp o cost s
  | .isc => modifyBy effectIsc o cost s
  | .tax => registerInstr effectTax cost s
  | .tay => registerInstr effectTay cost s
  | .txa => registerInstr effectTxa cost s
  | .tya => registerInstr effectTya cost s
  | .tsx => registerInstr effectTsx cost s
  | .txs => registerInstr effectTxs cost s
  | .inx => registerInstr effectInx cost s
  | .iny => registerInstr effectIny cost s
  | .dex => registerInstr effectDex cost s
  | .dey => registerInstr effectDey cost s
  | .jam => registerInstr effectJam cost s
  | .clc => registerInstr (setFlags fun p => { p with c := false }) cost s
  | .sec => registerInstr (setFlags fun p => { p with c := true }) cost s
  | .cli => registerInstr (setFlags fun p => { p with i := false }) cost s
  | .sei => registerInstr (setFlags fun p => { p with i := true }) cost s
  | .clv => registerInstr (setFlags fun p => { p with v := false }) cost s
  | .cld => registerInstr (setFlags fun p => { p with d := false }) cost s
  | .sed => registerInstr (setFlags fun p => { p with d := true }) cost s
  | .bcc => branchBy (fun p => !p.c) o cost s
  | .bcs => branchBy (fun p => p.c) o cost s
  | .beq => branchBy (fun p => p.z) o cost s
  | .bne => branchBy (fun p => !p.z) o cost s
  | .bmi => branchBy (fun p => p.n) o cost s
  | .bpl => branchBy (fun p => !p.n) o cost s
  | .bvc => branchBy (fun p => !p.v) o cost s
  | .bvs => branchBy (fun p => p.v) o cost s
  | .sha => highBy id (fun h c => c.a &&& c.x &&& h) o cost s
  | .shx => highBy id (fun h c => c.x &&& h) o cost s
  | .shy => highBy id (fun h c => c.y &&& h) o cost s
  | .tas => highBy effectTas (fun h c => c.sp &&& h) o cost s
  | .nop => nopBy o cost s
  | .jmp => jumpBy .jmp o cost s
  | .jsr => jumpBy .jsr o cost s
  | .pha => (push s.cpu.a s).charge cost.base
  | .php => (push (s.cpu.p.toByte true) s).charge cost.base
  | .pla => ((pull s).2.mapCpu fun c => c.loadA (pull s).1).charge cost.base
  | .plp => ((pull s).2.setP (Status.ofByte (pull s).1)).charge cost.base
  | .rts => ((pull16 s).2.setPc ((pull16 s).1 + 1)).charge cost.base
  | .rti => (returnFromInterrupt s).charge cost.base
  | .brk => (takeInterrupt true (s.cpu.pc + 1) irqVector s).charge cost.base

/-- The modes a mnemonic takes (30_encoding.md R176). -/
def modesOf : Mnemonic → List Mode
  | .brk => [.imp]
  | .ora => [.izX, .zp, .imm, .abs, .izY, .zpX, .absY, .absX]
  | .jam => [.imp]
  | .slo => [.izX, .zp, .abs, .izY, .zpX, .absY, .absX]
  | .nop => [.zp, .abs, .zpX, .imp, .absX, .imm]
  | .asl => [.zp, .acc, .abs, .zpX, .absX]
  | .php => [.imp]
  | .anc => [.imm]
  | .bpl => [.rel]
  | .clc => [.imp]
  | .jsr => [.abs]
  | .and => [.izX, .zp, .imm, .abs, .izY, .zpX, .absY, .absX]
  | .rla => [.izX, .zp, .abs, .izY, .zpX, .absY, .absX]
  | .bit => [.zp, .abs]
  | .rol => [.zp, .acc, .abs, .zpX, .absX]
  | .plp => [.imp]
  | .bmi => [.rel]
  | .sec => [.imp]
  | .rti => [.imp]
  | .eor => [.izX, .zp, .imm, .abs, .izY, .zpX, .absY, .absX]
  | .sre => [.izX, .zp, .abs, .izY, .zpX, .absY, .absX]
  | .lsr => [.zp, .acc, .abs, .zpX, .absX]
  | .pha => [.imp]
  | .alr => [.imm]
  | .jmp => [.abs, .ind]
  | .bvc => [.rel]
  | .cli => [.imp]
  | .rts => [.imp]
  | .adc => [.izX, .zp, .imm, .abs, .izY, .zpX, .absY, .absX]
  | .rra => [.izX, .zp, .abs, .izY, .zpX, .absY, .absX]
  | .ror => [.zp, .acc, .abs, .zpX, .absX]
  | .pla => [.imp]
  | .arr => [.imm]
  | .bvs => [.rel]
  | .sei => [.imp]
  | .sta => [.izX, .zp, .abs, .izY, .zpX, .absY, .absX]
  | .sax => [.izX, .zp, .abs, .zpY]
  | .sty => [.zp, .abs, .zpX]
  | .stx => [.zp, .abs, .zpY]
  | .dey => [.imp]
  | .txa => [.imp]
  | .ane => [.imm]
  | .bcc => [.rel]
  | .sha => [.izY, .absY]
  | .tya => [.imp]
  | .txs => [.imp]
  | .tas => [.absY]
  | .shy => [.absX]
  | .shx => [.absY]
  | .ldy => [.imm, .zp, .abs, .zpX, .absX]
  | .lda => [.izX, .zp, .imm, .abs, .izY, .zpX, .absY, .absX]
  | .ldx => [.imm, .zp, .abs, .zpY, .absY]
  | .lax => [.izX, .zp, .abs, .izY, .zpY, .absY]
  | .tay => [.imp]
  | .tax => [.imp]
  | .lxa => [.imm]
  | .bcs => [.rel]
  | .clv => [.imp]
  | .tsx => [.imp]
  | .las => [.absY]
  | .cpy => [.imm, .zp, .abs]
  | .cmp => [.izX, .zp, .imm, .abs, .izY, .zpX, .absY, .absX]
  | .dcp => [.izX, .zp, .abs, .izY, .zpX, .absY, .absX]
  | .dec => [.zp, .abs, .zpX, .absX]
  | .iny => [.imp]
  | .dex => [.imp]
  | .sbx => [.imm]
  | .bne => [.rel]
  | .cld => [.imp]
  | .cpx => [.imm, .zp, .abs]
  | .sbc => [.izX, .zp, .imm, .abs, .izY, .zpX, .absY, .absX]
  | .isc => [.izX, .zp, .abs, .izY, .zpX, .absY, .absX]
  | .inc => [.zp, .abs, .zpX, .absX]
  | .inx => [.imp]
  | .beq => [.rel]
  | .sed => [.imp]

/-- An instruction's operand has one of the modes of its mnemonic. -/
theorem instr_mode_mem (i : Instr) : (modesOf i.mnemonic).contains i.operand.mode = true := by
  cases i <;> rfl

/-- The rows that share a constructor share their cost. -/
theorem rowCost_jam : ∀ op : Byte, (Instr.jam op).opcodeAdmitted = true → rowCost (.jam op) = .fixed 2 := by
  decide +kernel

theorem rowCost_nopImp : ∀ op : Byte, (Instr.nopImp op).opcodeAdmitted = true → rowCost (.nopImp op) = .fixed 2 := by
  decide +kernel

theorem rowCost_nopImm (m : Byte) :
    ∀ op : Byte, (Instr.nopImm op m).opcodeAdmitted = true → rowCost (.nopImm op m) = .fixed 2 :=
  show ∀ op : Byte, (Instr.nopImm op 0).opcodeAdmitted = true → rowCost (.nopImm op 0) = .fixed 2 by decide +kernel

theorem rowCost_nopZp (a : Byte) :
    ∀ op : Byte, (Instr.nopZp op a).opcodeAdmitted = true → rowCost (.nopZp op a) = .fixed 3 :=
  show ∀ op : Byte, (Instr.nopZp op 0).opcodeAdmitted = true → rowCost (.nopZp op 0) = .fixed 3 by decide +kernel

theorem rowCost_nopZpX (a : Byte) :
    ∀ op : Byte, (Instr.nopZpX op a).opcodeAdmitted = true → rowCost (.nopZpX op a) = .fixed 4 :=
  show ∀ op : Byte, (Instr.nopZpX op 0).opcodeAdmitted = true → rowCost (.nopZpX op 0) = .fixed 4 by decide +kernel

theorem rowCost_nopAbsX (a : Word) :
    ∀ op : Byte, (Instr.nopAbsX op a).opcodeAdmitted = true → rowCost (.nopAbsX op a) = .paged 4 :=
  show ∀ op : Byte, (Instr.nopAbsX op 0).opcodeAdmitted = true → rowCost (.nopAbsX op 0) = .paged 4 by
    decide +kernel

theorem rowCost_ancImm (m : Byte) :
    ∀ op : Byte, (Instr.ancImm op m).opcodeAdmitted = true → rowCost (.ancImm op m) = .fixed 2 :=
  show ∀ op : Byte, (Instr.ancImm op 0).opcodeAdmitted = true → rowCost (.ancImm op 0) = .fixed 2 by decide +kernel

/-- EXEC, SAID ONCE: an instruction whose opcode its constructor admits does what its mnemonic does on its operand, at
the cost of its row. -/
theorem exec_eq (i : Instr) (h : i.opcodeAdmitted = true) (s : State) :
    exec i s = .next (semantics i.mnemonic i.operand (rowCost i) s) := by
  cases i
  case jam op => rw [rowCost_jam op h]; rfl
  case nopImp op => rw [rowCost_nopImp op h]; rfl
  case nopImm op m => rw [rowCost_nopImm m op h]; rfl
  case nopZp op a => rw [rowCost_nopZp a op h]; rfl
  case nopZpX op a => rw [rowCost_nopZpX a op h]; rfl
  case nopAbsX op a => rw [rowCost_nopAbsX a op h]; rfl
  case ancImm op m => rw [rowCost_ancImm m op h]; rfl
  all_goals
    simp only [rowCost, Instr.opcode, encode, bytes2, bytes3, List.headD_cons]
    rfl

/-- Only the shared constructors can hold an opcode that is not theirs. -/
theorem instr_admitted (i : Instr) (h1 : i.mnemonic ≠ .jam) (h2 : i.mnemonic ≠ .nop)
    (h3 : i.mnemonic ≠ .anc) : i.opcodeAdmitted = true := by
  cases i
  case jam op => exact absurd rfl h1
  case nopImp op => exact absurd rfl h2
  case nopImm op m => exact absurd rfl h2
  case nopZp op a => exact absurd rfl h2
  case nopZpX op a => exact absurd rfl h2
  case nopAbsX op a => exact absurd rfl h2
  case ancImm op m => exact absurd rfl h3
  all_goals rfl

/-- The opcode a shared constructor holds does not change what it does, so `exec` of any instruction is `exec` of one
that is admitted, with the same mnemonic and operand. -/
theorem exec_admitted (i : Instr) :
    ∃ j : Instr, j.opcodeAdmitted = true ∧ j.mnemonic = i.mnemonic ∧ j.operand = i.operand ∧
      ∀ s, exec i s = exec j s := by
  cases i
  case jam op => exact ⟨.jam 0x02, rfl, rfl, rfl, fun _ => rfl⟩
  case nopImp op => exact ⟨.nopImp 0x1A, rfl, rfl, rfl, fun _ => rfl⟩
  case nopImm op m => exact ⟨.nopImm 0x80 m, rfl, rfl, rfl, fun _ => rfl⟩
  case nopZp op a => exact ⟨.nopZp 0x04 a, rfl, rfl, rfl, fun _ => rfl⟩
  case nopZpX op a => exact ⟨.nopZpX 0x14 a, rfl, rfl, rfl, fun _ => rfl⟩
  case nopAbsX op a => exact ⟨.nopAbsX 0x1C a, rfl, rfl, rfl, fun _ => rfl⟩
  case ancImm op m => exact ⟨.ancImm 0x0B m, rfl, rfl, rfl, fun _ => rfl⟩
  all_goals exact ⟨_, rfl, rfl, rfl, fun _ => rfl⟩

end Sys2Proof.Machine
end

