-- ==== Sys2Proof/Laws/Memory.lean ====
section
/-! SUPPORT. The laws of a memory: a read after a write, and that every operation keeps the canonical form and the
size. -/

namespace Sys2Proof.Machine

variable {w : Nat}

@[simp] theorem Memory.read_nil (k : Nat) : Memory.read ([] : Memory w) k = Memory.unlisted w := rfl

theorem Memory.read_cons_cell (j : Nat) (v : BitVec w) (rest : Memory w) (k : Nat) :
    Memory.read ((j, v) :: rest) k = if j = k then v else Memory.read rest k := rfl

/-- A canonical memory whose indices lie after `lo` reads as unlisted at `lo` and before. -/
theorem Memory.read_of_wfAfter {m : Memory w} {lo k : Nat} (h : Memory.wfAfter (some lo) m = true) (hk : k ≤ lo) :
    m.read k = Memory.unlisted w := by
  induction m generalizing lo with
  | nil => rfl
  | cons cell rest ih =>
    obtain ⟨j, v⟩ := cell
    simp only [Memory.wfAfter, Bool.and_eq_true, decide_eq_true_eq] at h
    obtain ⟨⟨hlo, -⟩, hrest⟩ := h
    rw [Memory.read_cons_cell, if_neg (by omega)]
    exact ih hrest (by omega)

theorem Memory.read_cons (k j : Nat) (v : BitVec w) (m : Memory w) (h : k = j → m.read j = Memory.unlisted w) :
    (Memory.cons k v m).read j = if k = j then v else m.read j := by
  unfold Memory.cons
  split
  · next hv =>
    split
    · next hkj => rw [h hkj, hv]
    · rfl
  · rfl

/-- READ AFTER WRITE: the written index reads as the value, every other index as before. -/
theorem Memory.read_write {m : Memory w} (h : m.wf = true) (k j : Nat) (v : BitVec w) :
    (m.write k v).read j = if k = j then v else m.read j := by
  unfold Memory.wf at h
  generalize hlo : (none : Option Nat) = lo at h
  clear hlo
  induction m generalizing lo with
  | nil => exact Memory.read_cons k j v [] fun _ => rfl
  | cons cell rest ih =>
    obtain ⟨i, u⟩ := cell
    simp only [Memory.wfAfter, Bool.and_eq_true, decide_eq_true_eq] at h
    obtain ⟨⟨-, -⟩, hrest⟩ := h
    simp only [Memory.write]
    split
    · next hki =>
      refine Memory.read_cons k j v _ fun hkj => ?_
      rw [Memory.read_cons_cell, if_neg (by omega)]
      exact Memory.read_of_wfAfter hrest (by omega)
    · split
      · next _ hki =>
        subst hki
        rw [Memory.read_cons k j v rest fun hkj => Memory.read_of_wfAfter hrest (by omega), Memory.read_cons_cell]
        split <;> rfl
      · next hlt hne =>
        rw [Memory.read_cons_cell, ih _ hrest, Memory.read_cons_cell]
        split
        · next hij => rw [if_neg (by omega)]
        · rfl

theorem Memory.read_write_same {m : Memory w} (h : m.wf = true) (k : Nat) (v : BitVec w) :
    (m.write k v).read k = v := by simp [Memory.read_write h]

theorem Memory.read_write_other {m : Memory w} (h : m.wf = true) {k j : Nat} (hkj : k ≠ j) (v : BitVec w) :
    (m.write k v).read j = m.read j := by simp [Memory.read_write h, hkj]

theorem Memory.wfAfter_cons {lo : Option Nat} {k : Nat} {v : BitVec w} {m : Memory w}
    (hlo : ∀ l, lo = some l → l < k) (hm : Memory.wfAfter (some k) m = true)
    (hm' : Memory.wfAfter lo m = true) : Memory.wfAfter lo (Memory.cons k v m) = true := by
  unfold Memory.cons
  split
  · exact hm'
  · next hv =>
    cases lo with
    | none => simp [Memory.wfAfter, hv, hm]
    | some l => simp [Memory.wfAfter, hv, hm, hlo l rfl]

theorem Memory.wfAfter_weaken {lo : Option Nat} {k : Nat} {m : Memory w} (hlo : ∀ l, lo = some l → l < k)
    (h : Memory.wfAfter (some k) m = true) : Memory.wfAfter lo m = true := by
  cases m with
  | nil => rfl
  | cons cell rest =>
    obtain ⟨j, v⟩ := cell
    simp only [Memory.wfAfter, Bool.and_eq_true, decide_eq_true_eq] at h ⊢
    obtain ⟨⟨hkj, hv⟩, hrest⟩ := h
    refine ⟨⟨?_, hv⟩, hrest⟩
    cases lo with
    | none => rfl
    | some l => simpa using lt_trans (hlo l rfl) hkj

theorem Memory.wfAfter_write {lo : Option Nat} {m : Memory w} {k : Nat} (v : BitVec w)
    (hlo : ∀ l, lo = some l → l < k) (h : Memory.wfAfter lo m = true) :
    Memory.wfAfter lo (m.write k v) = true := by
  induction m generalizing lo with
  | nil => exact Memory.wfAfter_cons hlo rfl rfl
  | cons cell rest ih =>
    obtain ⟨i, u⟩ := cell
    have h' := h
    simp only [Memory.wfAfter, Bool.and_eq_true, decide_eq_true_eq] at h
    obtain ⟨⟨hi, hu⟩, hrest⟩ := h
    simp only [Memory.write]
    split
    · next hki =>
      refine Memory.wfAfter_cons hlo ?_ h'
      simp [Memory.wfAfter, hki, hu, hrest]
    · split
      · next _ hki =>
        subst hki
        exact Memory.wfAfter_cons hlo hrest (Memory.wfAfter_weaken hlo hrest)
      · next hlt hne =>
        have := ih (lo := some i) (fun l hl => by cases hl; omega) hrest
        simp only [Memory.wfAfter, Bool.and_eq_true, decide_eq_true_eq]
        exact ⟨⟨hi, hu⟩, this⟩

/-- A write keeps the canonical form. -/
theorem Memory.wf_write {m : Memory w} (h : m.wf = true) (k : Nat) (v : BitVec w) : (m.write k v).wf = true :=
  Memory.wfAfter_write v (fun _ hl => by cases hl) h

/-- A write within the size keeps the size. -/
theorem Memory.below_write {m : Memory w} {n : Nat} (h : m.below n = true) {k : Nat} (hk : k < n) (v : BitVec w) :
    (m.write k v).below n = true := by
  have hcons : ∀ r : Memory w, Memory.below r n = true → Memory.below (Memory.cons k v r) n = true := by
    intro r hr
    unfold Memory.cons
    split
    · exact hr
    · simpa [Memory.below, hk] using hr
  induction m with
  | nil => exact hcons [] rfl
  | cons cell rest ih =>
    obtain ⟨i, u⟩ := cell
    have hrest : Memory.below rest n = true := by
      simp only [Memory.below, List.all_cons, Bool.and_eq_true] at h
      exact h.2
    have hi : i < n := by simpa [Memory.below] using (List.all_eq_true.mp h) (i, u) (by simp)
    simp only [Memory.write]
    split
    · exact hcons _ h
    · split
      · exact hcons _ hrest
      · simpa [Memory.below, hi] using ih hrest

/-- A sequence of writes keeps the canonical form. -/
theorem Memory.wf_writeList {m : Memory w} (h : m.wf = true) (k : Nat) (vs : List (BitVec w)) :
    (m.writeList k vs).wf = true := by
  induction vs generalizing m k with
  | nil => exact h
  | cons v rest ih => exact ih (Memory.wf_write h k v) (k + 1)

/-- The memory of a sequence is canonical. -/
theorem Memory.wf_ofList (k : Nat) (vs : List (BitVec w)) : (Memory.ofList k vs).wf = true := by
  suffices ∀ lo : Option Nat, (∀ l, lo = some l → l < k) → Memory.wfAfter lo (Memory.ofList k vs) = true from
    this none fun _ hl => by cases hl
  induction vs generalizing k with
  | nil => intro lo _; rfl
  | cons v rest ih =>
    intro lo hlo
    have hk := ih (k + 1) (some k) fun l hl => by cases hl; omega
    exact Memory.wfAfter_cons hlo hk (Memory.wfAfter_weaken hlo hk)

/-- A sequence's memory reads back its values, and the unlisted value elsewhere. -/
theorem Memory.read_ofList (k j : Nat) (vs : List (BitVec w)) :
    (Memory.ofList k vs).read j = if k ≤ j then vs.getD (j - k) (Memory.unlisted w) else Memory.unlisted w := by
  induction vs generalizing k j with
  | nil => simp [Memory.ofList]
  | cons v rest ih =>
    have hlow : ∀ i, i ≤ k → (Memory.ofList (k + 1) rest).read i = Memory.unlisted w := fun i hi => by
      rw [ih, if_neg (by omega)]
    rw [Memory.ofList, Memory.read_cons _ _ _ _ fun hkj => hlow j (by omega), ih]
    by_cases hkj : k = j
    · subst hkj; simp
    · by_cases hle : k ≤ j
      · have : j - k = (j - (k + 1)) + 1 := by omega
        rw [if_neg hkj, if_pos (by omega), if_pos hle, this]
        simp
      · rw [if_neg hkj, if_neg (by omega), if_neg hle]

end Sys2Proof.Machine
end

