-- ==== Sys2Proof/Laws/State.lean ====
section
/-! SUPPORT. What each named update of a record does to each field, true by rfl. -/

namespace Sys2Proof.Machine

/-! `State.setCpu` -/

@[simp] theorem State.setCpu_ram (s : State) (c : Cpu) : (s.setCpu c).ram = s.ram := rfl
@[simp] theorem State.setCpu_ppu (s : State) (c : Cpu) : (s.setCpu c).ppu = s.ppu := rfl
@[simp] theorem State.setCpu_cart (s : State) (c : Cpu) : (s.setCpu c).cart = s.cart := rfl
@[simp] theorem State.setCpu_ctl1 (s : State) (c : Cpu) : (s.setCpu c).ctl1 = s.ctl1 := rfl
@[simp] theorem State.setCpu_ctl2 (s : State) (c : Cpu) : (s.setCpu c).ctl2 = s.ctl2 := rfl
@[simp] theorem State.setCpu_sync (s : State) (c : Cpu) : (s.setCpu c).sync = s.sync := rfl
@[simp] theorem State.setCpu_host (s : State) (c : Cpu) : (s.setCpu c).host = s.host := rfl
@[simp] theorem State.setCpu_cpu (s : State) (c : Cpu) : (s.setCpu c).cpu = c := rfl

/-! `State.mapCpu` -/

@[simp] theorem State.mapCpu_ram (s : State) (f : Cpu → Cpu) : (s.mapCpu f).ram = s.ram := rfl
@[simp] theorem State.mapCpu_ppu (s : State) (f : Cpu → Cpu) : (s.mapCpu f).ppu = s.ppu := rfl
@[simp] theorem State.mapCpu_cart (s : State) (f : Cpu → Cpu) : (s.mapCpu f).cart = s.cart := rfl
@[simp] theorem State.mapCpu_ctl1 (s : State) (f : Cpu → Cpu) : (s.mapCpu f).ctl1 = s.ctl1 := rfl
@[simp] theorem State.mapCpu_ctl2 (s : State) (f : Cpu → Cpu) : (s.mapCpu f).ctl2 = s.ctl2 := rfl
@[simp] theorem State.mapCpu_sync (s : State) (f : Cpu → Cpu) : (s.mapCpu f).sync = s.sync := rfl
@[simp] theorem State.mapCpu_host (s : State) (f : Cpu → Cpu) : (s.mapCpu f).host = s.host := rfl
@[simp] theorem State.mapCpu_cpu (s : State) (f : Cpu → Cpu) : (s.mapCpu f).cpu = f s.cpu := rfl

/-! `State.setPc` -/

@[simp] theorem State.setPc_ram (s : State) (pc : Word) : (s.setPc pc).ram = s.ram := rfl
@[simp] theorem State.setPc_ppu (s : State) (pc : Word) : (s.setPc pc).ppu = s.ppu := rfl
@[simp] theorem State.setPc_cart (s : State) (pc : Word) : (s.setPc pc).cart = s.cart := rfl
@[simp] theorem State.setPc_ctl1 (s : State) (pc : Word) : (s.setPc pc).ctl1 = s.ctl1 := rfl
@[simp] theorem State.setPc_ctl2 (s : State) (pc : Word) : (s.setPc pc).ctl2 = s.ctl2 := rfl
@[simp] theorem State.setPc_sync (s : State) (pc : Word) : (s.setPc pc).sync = s.sync := rfl
@[simp] theorem State.setPc_host (s : State) (pc : Word) : (s.setPc pc).host = s.host := rfl
@[simp] theorem State.setPc_cpu_a (s : State) (pc : Word) : (s.setPc pc).cpu.a = s.cpu.a := rfl
@[simp] theorem State.setPc_cpu_x (s : State) (pc : Word) : (s.setPc pc).cpu.x = s.cpu.x := rfl
@[simp] theorem State.setPc_cpu_y (s : State) (pc : Word) : (s.setPc pc).cpu.y = s.cpu.y := rfl
@[simp] theorem State.setPc_cpu_sp (s : State) (pc : Word) : (s.setPc pc).cpu.sp = s.cpu.sp := rfl
@[simp] theorem State.setPc_cpu_pc (s : State) (pc : Word) : (s.setPc pc).cpu.pc = pc := rfl
@[simp] theorem State.setPc_cpu_p (s : State) (pc : Word) : (s.setPc pc).cpu.p = s.cpu.p := rfl
@[simp] theorem State.setPc_cpu_halted (s : State) (pc : Word) : (s.setPc pc).cpu.halted = s.cpu.halted := rfl
@[simp] theorem State.setPc_cpu_cycles (s : State) (pc : Word) : (s.setPc pc).cpu.cycles = s.cpu.cycles := rfl
@[simp] theorem State.setPc_cpu_irqLine (s : State) (pc : Word) : (s.setPc pc).cpu.irqLine = s.cpu.irqLine := rfl

/-! `State.setP` -/

@[simp] theorem State.setP_ram (s : State) (p : Status) : (s.setP p).ram = s.ram := rfl
@[simp] theorem State.setP_ppu (s : State) (p : Status) : (s.setP p).ppu = s.ppu := rfl
@[simp] theorem State.setP_cart (s : State) (p : Status) : (s.setP p).cart = s.cart := rfl
@[simp] theorem State.setP_ctl1 (s : State) (p : Status) : (s.setP p).ctl1 = s.ctl1 := rfl
@[simp] theorem State.setP_ctl2 (s : State) (p : Status) : (s.setP p).ctl2 = s.ctl2 := rfl
@[simp] theorem State.setP_sync (s : State) (p : Status) : (s.setP p).sync = s.sync := rfl
@[simp] theorem State.setP_host (s : State) (p : Status) : (s.setP p).host = s.host := rfl
@[simp] theorem State.setP_cpu_a (s : State) (p : Status) : (s.setP p).cpu.a = s.cpu.a := rfl
@[simp] theorem State.setP_cpu_x (s : State) (p : Status) : (s.setP p).cpu.x = s.cpu.x := rfl
@[simp] theorem State.setP_cpu_y (s : State) (p : Status) : (s.setP p).cpu.y = s.cpu.y := rfl
@[simp] theorem State.setP_cpu_sp (s : State) (p : Status) : (s.setP p).cpu.sp = s.cpu.sp := rfl
@[simp] theorem State.setP_cpu_pc (s : State) (p : Status) : (s.setP p).cpu.pc = s.cpu.pc := rfl
@[simp] theorem State.setP_cpu_p (s : State) (p : Status) : (s.setP p).cpu.p = p := rfl
@[simp] theorem State.setP_cpu_halted (s : State) (p : Status) : (s.setP p).cpu.halted = s.cpu.halted := rfl
@[simp] theorem State.setP_cpu_cycles (s : State) (p : Status) : (s.setP p).cpu.cycles = s.cpu.cycles := rfl
@[simp] theorem State.setP_cpu_irqLine (s : State) (p : Status) : (s.setP p).cpu.irqLine = s.cpu.irqLine := rfl

/-! `State.setSp` -/

@[simp] theorem State.setSp_ram (s : State) (sp : Byte) : (s.setSp sp).ram = s.ram := rfl
@[simp] theorem State.setSp_ppu (s : State) (sp : Byte) : (s.setSp sp).ppu = s.ppu := rfl
@[simp] theorem State.setSp_cart (s : State) (sp : Byte) : (s.setSp sp).cart = s.cart := rfl
@[simp] theorem State.setSp_ctl1 (s : State) (sp : Byte) : (s.setSp sp).ctl1 = s.ctl1 := rfl
@[simp] theorem State.setSp_ctl2 (s : State) (sp : Byte) : (s.setSp sp).ctl2 = s.ctl2 := rfl
@[simp] theorem State.setSp_sync (s : State) (sp : Byte) : (s.setSp sp).sync = s.sync := rfl
@[simp] theorem State.setSp_host (s : State) (sp : Byte) : (s.setSp sp).host = s.host := rfl
@[simp] theorem State.setSp_cpu_a (s : State) (sp : Byte) : (s.setSp sp).cpu.a = s.cpu.a := rfl
@[simp] theorem State.setSp_cpu_x (s : State) (sp : Byte) : (s.setSp sp).cpu.x = s.cpu.x := rfl
@[simp] theorem State.setSp_cpu_y (s : State) (sp : Byte) : (s.setSp sp).cpu.y = s.cpu.y := rfl
@[simp] theorem State.setSp_cpu_sp (s : State) (sp : Byte) : (s.setSp sp).cpu.sp = sp := rfl
@[simp] theorem State.setSp_cpu_pc (s : State) (sp : Byte) : (s.setSp sp).cpu.pc = s.cpu.pc := rfl
@[simp] theorem State.setSp_cpu_p (s : State) (sp : Byte) : (s.setSp sp).cpu.p = s.cpu.p := rfl
@[simp] theorem State.setSp_cpu_halted (s : State) (sp : Byte) : (s.setSp sp).cpu.halted = s.cpu.halted := rfl
@[simp] theorem State.setSp_cpu_cycles (s : State) (sp : Byte) : (s.setSp sp).cpu.cycles = s.cpu.cycles := rfl
@[simp] theorem State.setSp_cpu_irqLine (s : State) (sp : Byte) : (s.setSp sp).cpu.irqLine = s.cpu.irqLine := rfl

/-! `State.charge` -/

@[simp] theorem State.charge_ram (s : State) (n : Nat) : (s.charge n).ram = s.ram := rfl
@[simp] theorem State.charge_ppu (s : State) (n : Nat) : (s.charge n).ppu = s.ppu := rfl
@[simp] theorem State.charge_cart (s : State) (n : Nat) : (s.charge n).cart = s.cart := rfl
@[simp] theorem State.charge_ctl1 (s : State) (n : Nat) : (s.charge n).ctl1 = s.ctl1 := rfl
@[simp] theorem State.charge_ctl2 (s : State) (n : Nat) : (s.charge n).ctl2 = s.ctl2 := rfl
@[simp] theorem State.charge_sync (s : State) (n : Nat) : (s.charge n).sync = s.sync := rfl
@[simp] theorem State.charge_host (s : State) (n : Nat) : (s.charge n).host = s.host := rfl
@[simp] theorem State.charge_cpu_a (s : State) (n : Nat) : (s.charge n).cpu.a = s.cpu.a := rfl
@[simp] theorem State.charge_cpu_x (s : State) (n : Nat) : (s.charge n).cpu.x = s.cpu.x := rfl
@[simp] theorem State.charge_cpu_y (s : State) (n : Nat) : (s.charge n).cpu.y = s.cpu.y := rfl
@[simp] theorem State.charge_cpu_sp (s : State) (n : Nat) : (s.charge n).cpu.sp = s.cpu.sp := rfl
@[simp] theorem State.charge_cpu_pc (s : State) (n : Nat) : (s.charge n).cpu.pc = s.cpu.pc := rfl
@[simp] theorem State.charge_cpu_p (s : State) (n : Nat) : (s.charge n).cpu.p = s.cpu.p := rfl
@[simp] theorem State.charge_cpu_halted (s : State) (n : Nat) : (s.charge n).cpu.halted = s.cpu.halted := rfl
@[simp] theorem State.charge_cpu_cycles (s : State) (n : Nat) : (s.charge n).cpu.cycles = s.cpu.cycles + n := rfl
@[simp] theorem State.charge_cpu_irqLine (s : State) (n : Nat) : (s.charge n).cpu.irqLine = s.cpu.irqLine := rfl

/-! `State.setPpu` -/

@[simp] theorem State.setPpu_cpu (s : State) (p : Ppu) : (s.setPpu p).cpu = s.cpu := rfl
@[simp] theorem State.setPpu_ram (s : State) (p : Ppu) : (s.setPpu p).ram = s.ram := rfl
@[simp] theorem State.setPpu_cart (s : State) (p : Ppu) : (s.setPpu p).cart = s.cart := rfl
@[simp] theorem State.setPpu_ctl1 (s : State) (p : Ppu) : (s.setPpu p).ctl1 = s.ctl1 := rfl
@[simp] theorem State.setPpu_ctl2 (s : State) (p : Ppu) : (s.setPpu p).ctl2 = s.ctl2 := rfl
@[simp] theorem State.setPpu_sync (s : State) (p : Ppu) : (s.setPpu p).sync = s.sync := rfl
@[simp] theorem State.setPpu_host (s : State) (p : Ppu) : (s.setPpu p).host = s.host := rfl
@[simp] theorem State.setPpu_ppu (s : State) (p : Ppu) : (s.setPpu p).ppu = p := rfl

/-! `Status.setNZ` -/

@[simp] theorem Status.setNZ_n (p : Status) (b : Byte) : (p.setNZ b).n = bit b 7 := rfl
@[simp] theorem Status.setNZ_v (p : Status) (b : Byte) : (p.setNZ b).v = p.v := rfl
@[simp] theorem Status.setNZ_d (p : Status) (b : Byte) : (p.setNZ b).d = p.d := rfl
@[simp] theorem Status.setNZ_i (p : Status) (b : Byte) : (p.setNZ b).i = p.i := rfl
@[simp] theorem Status.setNZ_z (p : Status) (b : Byte) : (p.setNZ b).z = (b == 0) := rfl
@[simp] theorem Status.setNZ_c (p : Status) (b : Byte) : (p.setNZ b).c = p.c := rfl

/-! `Status.compare` -/

@[simp] theorem Status.compare_n (p : Status) (r m : Byte) : (p.compare r m).n = bit (r - m) 7 := rfl
@[simp] theorem Status.compare_v (p : Status) (r m : Byte) : (p.compare r m).v = p.v := rfl
@[simp] theorem Status.compare_d (p : Status) (r m : Byte) : (p.compare r m).d = p.d := rfl
@[simp] theorem Status.compare_i (p : Status) (r m : Byte) : (p.compare r m).i = p.i := rfl
@[simp] theorem Status.compare_z (p : Status) (r m : Byte) : (p.compare r m).z = (r == m) := rfl
@[simp] theorem Status.compare_c (p : Status) (r m : Byte) : (p.compare r m).c = decide (m.toNat ≤ r.toNat) := rfl

/-! `Status.bitTest` -/

@[simp] theorem Status.bitTest_n (p : Status) (b m : Byte) : (p.bitTest b m).n = bit m 7 := rfl
@[simp] theorem Status.bitTest_v (p : Status) (b m : Byte) : (p.bitTest b m).v = bit m 6 := rfl
@[simp] theorem Status.bitTest_d (p : Status) (b m : Byte) : (p.bitTest b m).d = p.d := rfl
@[simp] theorem Status.bitTest_i (p : Status) (b m : Byte) : (p.bitTest b m).i = p.i := rfl
@[simp] theorem Status.bitTest_z (p : Status) (b m : Byte) : (p.bitTest b m).z = ((b &&& m) == 0) := rfl
@[simp] theorem Status.bitTest_c (p : Status) (b m : Byte) : (p.bitTest b m).c = p.c := rfl

/-! `Status.ofSum` -/

@[simp] theorem Status.ofSum_n (p : Status) (s : Sum) : (p.ofSum s).n = bit s.r 7 := rfl
@[simp] theorem Status.ofSum_v (p : Status) (s : Sum) : (p.ofSum s).v = s.v := rfl
@[simp] theorem Status.ofSum_d (p : Status) (s : Sum) : (p.ofSum s).d = p.d := rfl
@[simp] theorem Status.ofSum_i (p : Status) (s : Sum) : (p.ofSum s).i = p.i := rfl
@[simp] theorem Status.ofSum_z (p : Status) (s : Sum) : (p.ofSum s).z = (s.r == 0) := rfl
@[simp] theorem Status.ofSum_c (p : Status) (s : Sum) : (p.ofSum s).c = s.c := rfl

/-! `Status.ofShifted` -/

@[simp] theorem Status.ofShifted_n (p : Status) (s : Shifted) : (p.ofShifted s).n = bit s.r 7 := rfl
@[simp] theorem Status.ofShifted_v (p : Status) (s : Shifted) : (p.ofShifted s).v = p.v := rfl
@[simp] theorem Status.ofShifted_d (p : Status) (s : Shifted) : (p.ofShifted s).d = p.d := rfl
@[simp] theorem Status.ofShifted_i (p : Status) (s : Shifted) : (p.ofShifted s).i = p.i := rfl
@[simp] theorem Status.ofShifted_z (p : Status) (s : Shifted) : (p.ofShifted s).z = (s.r == 0) := rfl
@[simp] theorem Status.ofShifted_c (p : Status) (s : Shifted) : (p.ofShifted s).c = s.c := rfl

/-! `Cpu.loadA` -/

@[simp] theorem Cpu.loadA_a (c : Cpu) (b : Byte) : (c.loadA b).a = b := rfl
@[simp] theorem Cpu.loadA_x (c : Cpu) (b : Byte) : (c.loadA b).x = c.x := rfl
@[simp] theorem Cpu.loadA_y (c : Cpu) (b : Byte) : (c.loadA b).y = c.y := rfl
@[simp] theorem Cpu.loadA_sp (c : Cpu) (b : Byte) : (c.loadA b).sp = c.sp := rfl
@[simp] theorem Cpu.loadA_pc (c : Cpu) (b : Byte) : (c.loadA b).pc = c.pc := rfl
@[simp] theorem Cpu.loadA_p (c : Cpu) (b : Byte) : (c.loadA b).p = c.p.setNZ b := rfl
@[simp] theorem Cpu.loadA_halted (c : Cpu) (b : Byte) : (c.loadA b).halted = c.halted := rfl
@[simp] theorem Cpu.loadA_cycles (c : Cpu) (b : Byte) : (c.loadA b).cycles = c.cycles := rfl
@[simp] theorem Cpu.loadA_irqLine (c : Cpu) (b : Byte) : (c.loadA b).irqLine = c.irqLine := rfl

/-! `Cpu.loadX` -/

@[simp] theorem Cpu.loadX_a (c : Cpu) (b : Byte) : (c.loadX b).a = c.a := rfl
@[simp] theorem Cpu.loadX_x (c : Cpu) (b : Byte) : (c.loadX b).x = b := rfl
@[simp] theorem Cpu.loadX_y (c : Cpu) (b : Byte) : (c.loadX b).y = c.y := rfl
@[simp] theorem Cpu.loadX_sp (c : Cpu) (b : Byte) : (c.loadX b).sp = c.sp := rfl
@[simp] theorem Cpu.loadX_pc (c : Cpu) (b : Byte) : (c.loadX b).pc = c.pc := rfl
@[simp] theorem Cpu.loadX_p (c : Cpu) (b : Byte) : (c.loadX b).p = c.p.setNZ b := rfl
@[simp] theorem Cpu.loadX_halted (c : Cpu) (b : Byte) : (c.loadX b).halted = c.halted := rfl
@[simp] theorem Cpu.loadX_cycles (c : Cpu) (b : Byte) : (c.loadX b).cycles = c.cycles := rfl
@[simp] theorem Cpu.loadX_irqLine (c : Cpu) (b : Byte) : (c.loadX b).irqLine = c.irqLine := rfl

/-! `Cpu.loadY` -/

@[simp] theorem Cpu.loadY_a (c : Cpu) (b : Byte) : (c.loadY b).a = c.a := rfl
@[simp] theorem Cpu.loadY_x (c : Cpu) (b : Byte) : (c.loadY b).x = c.x := rfl
@[simp] theorem Cpu.loadY_y (c : Cpu) (b : Byte) : (c.loadY b).y = b := rfl
@[simp] theorem Cpu.loadY_sp (c : Cpu) (b : Byte) : (c.loadY b).sp = c.sp := rfl
@[simp] theorem Cpu.loadY_pc (c : Cpu) (b : Byte) : (c.loadY b).pc = c.pc := rfl
@[simp] theorem Cpu.loadY_p (c : Cpu) (b : Byte) : (c.loadY b).p = c.p.setNZ b := rfl
@[simp] theorem Cpu.loadY_halted (c : Cpu) (b : Byte) : (c.loadY b).halted = c.halted := rfl
@[simp] theorem Cpu.loadY_cycles (c : Cpu) (b : Byte) : (c.loadY b).cycles = c.cycles := rfl
@[simp] theorem Cpu.loadY_irqLine (c : Cpu) (b : Byte) : (c.loadY b).irqLine = c.irqLine := rfl

/-! `Cpu.addA` -/

@[simp] theorem Cpu.addA_a (c : Cpu) (m : Byte) (b : Bool) : (c.addA m b).a = (add8 c.a m b).r := rfl
@[simp] theorem Cpu.addA_x (c : Cpu) (m : Byte) (b : Bool) : (c.addA m b).x = c.x := rfl
@[simp] theorem Cpu.addA_y (c : Cpu) (m : Byte) (b : Bool) : (c.addA m b).y = c.y := rfl
@[simp] theorem Cpu.addA_sp (c : Cpu) (m : Byte) (b : Bool) : (c.addA m b).sp = c.sp := rfl
@[simp] theorem Cpu.addA_pc (c : Cpu) (m : Byte) (b : Bool) : (c.addA m b).pc = c.pc := rfl
@[simp] theorem Cpu.addA_p (c : Cpu) (m : Byte) (b : Bool) : (c.addA m b).p = c.p.ofSum (add8 c.a m b) := rfl
@[simp] theorem Cpu.addA_halted (c : Cpu) (m : Byte) (b : Bool) : (c.addA m b).halted = c.halted := rfl
@[simp] theorem Cpu.addA_cycles (c : Cpu) (m : Byte) (b : Bool) : (c.addA m b).cycles = c.cycles := rfl
@[simp] theorem Cpu.addA_irqLine (c : Cpu) (m : Byte) (b : Bool) : (c.addA m b).irqLine = c.irqLine := rfl

/-! `Cpu.setC` -/

@[simp] theorem Cpu.setC_a (c : Cpu) (b : Bool) : (c.setC b).a = c.a := rfl
@[simp] theorem Cpu.setC_x (c : Cpu) (b : Bool) : (c.setC b).x = c.x := rfl
@[simp] theorem Cpu.setC_y (c : Cpu) (b : Bool) : (c.setC b).y = c.y := rfl
@[simp] theorem Cpu.setC_sp (c : Cpu) (b : Bool) : (c.setC b).sp = c.sp := rfl
@[simp] theorem Cpu.setC_pc (c : Cpu) (b : Bool) : (c.setC b).pc = c.pc := rfl
@[simp] theorem Cpu.setC_p (c : Cpu) (b : Bool) : (c.setC b).p = { c.p with c := b } := rfl
@[simp] theorem Cpu.setC_halted (c : Cpu) (b : Bool) : (c.setC b).halted = c.halted := rfl
@[simp] theorem Cpu.setC_cycles (c : Cpu) (b : Bool) : (c.setC b).cycles = c.cycles := rfl
@[simp] theorem Cpu.setC_irqLine (c : Cpu) (b : Bool) : (c.setC b).irqLine = c.irqLine := rfl

/-! `Ppu.latch` -/

@[simp] theorem Ppu.latch_ctrl (q : Ppu) (b : Byte) : (q.latch b).ctrl = q.ctrl := rfl
@[simp] theorem Ppu.latch_mask (q : Ppu) (b : Byte) : (q.latch b).mask = q.mask := rfl
@[simp] theorem Ppu.latch_vblank (q : Ppu) (b : Byte) : (q.latch b).vblank = q.vblank := rfl
@[simp] theorem Ppu.latch_sprite0Hit (q : Ppu) (b : Byte) : (q.latch b).sprite0Hit = q.sprite0Hit := rfl
@[simp] theorem Ppu.latch_spriteOverflow (q : Ppu) (b : Byte) : (q.latch b).spriteOverflow = q.spriteOverflow := rfl
@[simp] theorem Ppu.latch_oamAddr (q : Ppu) (b : Byte) : (q.latch b).oamAddr = q.oamAddr := rfl
@[simp] theorem Ppu.latch_v (q : Ppu) (b : Byte) : (q.latch b).v = q.v := rfl
@[simp] theorem Ppu.latch_t (q : Ppu) (b : Byte) : (q.latch b).t = q.t := rfl
@[simp] theorem Ppu.latch_x (q : Ppu) (b : Byte) : (q.latch b).x = q.x := rfl
@[simp] theorem Ppu.latch_w (q : Ppu) (b : Byte) : (q.latch b).w = q.w := rfl
@[simp] theorem Ppu.latch_readBuffer (q : Ppu) (b : Byte) : (q.latch b).readBuffer = q.readBuffer := rfl
@[simp] theorem Ppu.latch_ioLatch (q : Ppu) (b : Byte) : (q.latch b).ioLatch = b := rfl
@[simp] theorem Ppu.latch_nmiRequest (q : Ppu) (b : Byte) : (q.latch b).nmiRequest = q.nmiRequest := rfl
@[simp] theorem Ppu.latch_oam (q : Ppu) (b : Byte) : (q.latch b).oam = q.oam := rfl
@[simp] theorem Ppu.latch_palette (q : Ppu) (b : Byte) : (q.latch b).palette = q.palette := rfl
@[simp] theorem Ppu.latch_ciram (q : Ppu) (b : Byte) : (q.latch b).ciram = q.ciram := rfl
@[simp] theorem Ppu.latch_scanline (q : Ppu) (b : Byte) : (q.latch b).scanline = q.scanline := rfl
@[simp] theorem Ppu.latch_dot (q : Ppu) (b : Byte) : (q.latch b).dot = q.dot := rfl
@[simp] theorem Ppu.latch_frame (q : Ppu) (b : Byte) : (q.latch b).frame = q.frame := rfl
@[simp] theorem Ppu.latch_bg (q : Ppu) (b : Byte) : (q.latch b).bg = q.bg := rfl
@[simp] theorem Ppu.latch_spr (q : Ppu) (b : Byte) : (q.latch b).spr = q.spr := rfl
@[simp] theorem Ppu.latch_frameBuffer (q : Ppu) (b : Byte) : (q.latch b).frameBuffer = q.frameBuffer := rfl

/-! `Ppu.advanceV` -/

@[simp] theorem Ppu.advanceV_ctrl (q : Ppu) : (q.advanceV).ctrl = q.ctrl := rfl
@[simp] theorem Ppu.advanceV_mask (q : Ppu) : (q.advanceV).mask = q.mask := rfl
@[simp] theorem Ppu.advanceV_vblank (q : Ppu) : (q.advanceV).vblank = q.vblank := rfl
@[simp] theorem Ppu.advanceV_sprite0Hit (q : Ppu) : (q.advanceV).sprite0Hit = q.sprite0Hit := rfl
@[simp] theorem Ppu.advanceV_spriteOverflow (q : Ppu) : (q.advanceV).spriteOverflow = q.spriteOverflow := rfl
@[simp] theorem Ppu.advanceV_oamAddr (q : Ppu) : (q.advanceV).oamAddr = q.oamAddr := rfl
@[simp] theorem Ppu.advanceV_v (q : Ppu) : (q.advanceV).v = q.v + q.inc := rfl
@[simp] theorem Ppu.advanceV_t (q : Ppu) : (q.advanceV).t = q.t := rfl
@[simp] theorem Ppu.advanceV_x (q : Ppu) : (q.advanceV).x = q.x := rfl
@[simp] theorem Ppu.advanceV_w (q : Ppu) : (q.advanceV).w = q.w := rfl
@[simp] theorem Ppu.advanceV_readBuffer (q : Ppu) : (q.advanceV).readBuffer = q.readBuffer := rfl
@[simp] theorem Ppu.advanceV_ioLatch (q : Ppu) : (q.advanceV).ioLatch = q.ioLatch := rfl
@[simp] theorem Ppu.advanceV_nmiRequest (q : Ppu) : (q.advanceV).nmiRequest = q.nmiRequest := rfl
@[simp] theorem Ppu.advanceV_oam (q : Ppu) : (q.advanceV).oam = q.oam := rfl
@[simp] theorem Ppu.advanceV_palette (q : Ppu) : (q.advanceV).palette = q.palette := rfl
@[simp] theorem Ppu.advanceV_ciram (q : Ppu) : (q.advanceV).ciram = q.ciram := rfl
@[simp] theorem Ppu.advanceV_scanline (q : Ppu) : (q.advanceV).scanline = q.scanline := rfl
@[simp] theorem Ppu.advanceV_dot (q : Ppu) : (q.advanceV).dot = q.dot := rfl
@[simp] theorem Ppu.advanceV_frame (q : Ppu) : (q.advanceV).frame = q.frame := rfl
@[simp] theorem Ppu.advanceV_bg (q : Ppu) : (q.advanceV).bg = q.bg := rfl
@[simp] theorem Ppu.advanceV_spr (q : Ppu) : (q.advanceV).spr = q.spr := rfl
@[simp] theorem Ppu.advanceV_frameBuffer (q : Ppu) : (q.advanceV).frameBuffer = q.frameBuffer := rfl

/-! `Ppu.oamStore` -/

@[simp] theorem Ppu.oamStore_ctrl (q : Ppu) (i b : Byte) : (q.oamStore i b).ctrl = q.ctrl := rfl
@[simp] theorem Ppu.oamStore_mask (q : Ppu) (i b : Byte) : (q.oamStore i b).mask = q.mask := rfl
@[simp] theorem Ppu.oamStore_vblank (q : Ppu) (i b : Byte) : (q.oamStore i b).vblank = q.vblank := rfl
@[simp] theorem Ppu.oamStore_sprite0Hit (q : Ppu) (i b : Byte) : (q.oamStore i b).sprite0Hit = q.sprite0Hit := rfl
@[simp] theorem Ppu.oamStore_spriteOverflow (q : Ppu) (i b : Byte) :
    (q.oamStore i b).spriteOverflow = q.spriteOverflow := rfl
@[simp] theorem Ppu.oamStore_oamAddr (q : Ppu) (i b : Byte) : (q.oamStore i b).oamAddr = q.oamAddr := rfl
@[simp] theorem Ppu.oamStore_v (q : Ppu) (i b : Byte) : (q.oamStore i b).v = q.v := rfl
@[simp] theorem Ppu.oamStore_t (q : Ppu) (i b : Byte) : (q.oamStore i b).t = q.t := rfl
@[simp] theorem Ppu.oamStore_x (q : Ppu) (i b : Byte) : (q.oamStore i b).x = q.x := rfl
@[simp] theorem Ppu.oamStore_w (q : Ppu) (i b : Byte) : (q.oamStore i b).w = q.w := rfl
@[simp] theorem Ppu.oamStore_readBuffer (q : Ppu) (i b : Byte) : (q.oamStore i b).readBuffer = q.readBuffer := rfl
@[simp] theorem Ppu.oamStore_ioLatch (q : Ppu) (i b : Byte) : (q.oamStore i b).ioLatch = q.ioLatch := rfl
@[simp] theorem Ppu.oamStore_nmiRequest (q : Ppu) (i b : Byte) : (q.oamStore i b).nmiRequest = q.nmiRequest := rfl
@[simp] theorem Ppu.oamStore_oam (q : Ppu) (i b : Byte) :
    (q.oamStore i b).oam = q.oam.write i.toNat (if i &&& 3 = 2 then b &&& 0xE3 else b) := rfl
@[simp] theorem Ppu.oamStore_palette (q : Ppu) (i b : Byte) : (q.oamStore i b).palette = q.palette := rfl
@[simp] theorem Ppu.oamStore_ciram (q : Ppu) (i b : Byte) : (q.oamStore i b).ciram = q.ciram := rfl
@[simp] theorem Ppu.oamStore_scanline (q : Ppu) (i b : Byte) : (q.oamStore i b).scanline = q.scanline := rfl
@[simp] theorem Ppu.oamStore_dot (q : Ppu) (i b : Byte) : (q.oamStore i b).dot = q.dot := rfl
@[simp] theorem Ppu.oamStore_frame (q : Ppu) (i b : Byte) : (q.oamStore i b).frame = q.frame := rfl
@[simp] theorem Ppu.oamStore_bg (q : Ppu) (i b : Byte) : (q.oamStore i b).bg = q.bg := rfl
@[simp] theorem Ppu.oamStore_spr (q : Ppu) (i b : Byte) : (q.oamStore i b).spr = q.spr := rfl
@[simp] theorem Ppu.oamStore_frameBuffer (q : Ppu) (i b : Byte) : (q.oamStore i b).frameBuffer = q.frameBuffer := rfl

/-! `Ppu.machineReset` -/

@[simp] theorem Ppu.machineReset_ctrl (q : Ppu) : (q.machineReset).ctrl = 0 := rfl
@[simp] theorem Ppu.machineReset_mask (q : Ppu) : (q.machineReset).mask = 0 := rfl
@[simp] theorem Ppu.machineReset_vblank (q : Ppu) : (q.machineReset).vblank = q.vblank := rfl
@[simp] theorem Ppu.machineReset_sprite0Hit (q : Ppu) : (q.machineReset).sprite0Hit = q.sprite0Hit := rfl
@[simp] theorem Ppu.machineReset_spriteOverflow (q : Ppu) :
    (q.machineReset).spriteOverflow = q.spriteOverflow := rfl
@[simp] theorem Ppu.machineReset_oamAddr (q : Ppu) : (q.machineReset).oamAddr = q.oamAddr := rfl
@[simp] theorem Ppu.machineReset_v (q : Ppu) : (q.machineReset).v = q.v := rfl
@[simp] theorem Ppu.machineReset_t (q : Ppu) : (q.machineReset).t = 0 := rfl
@[simp] theorem Ppu.machineReset_x (q : Ppu) : (q.machineReset).x = 0 := rfl
@[simp] theorem Ppu.machineReset_w (q : Ppu) : (q.machineReset).w = false := rfl
@[simp] theorem Ppu.machineReset_readBuffer (q : Ppu) : (q.machineReset).readBuffer = 0 := rfl
@[simp] theorem Ppu.machineReset_ioLatch (q : Ppu) : (q.machineReset).ioLatch = q.ioLatch := rfl
@[simp] theorem Ppu.machineReset_nmiRequest (q : Ppu) : (q.machineReset).nmiRequest = false := rfl
@[simp] theorem Ppu.machineReset_oam (q : Ppu) : (q.machineReset).oam = q.oam := rfl
@[simp] theorem Ppu.machineReset_palette (q : Ppu) : (q.machineReset).palette = q.palette := rfl
@[simp] theorem Ppu.machineReset_ciram (q : Ppu) : (q.machineReset).ciram = q.ciram := rfl
@[simp] theorem Ppu.machineReset_scanline (q : Ppu) : (q.machineReset).scanline = q.scanline := rfl
@[simp] theorem Ppu.machineReset_dot (q : Ppu) : (q.machineReset).dot = q.dot := rfl
@[simp] theorem Ppu.machineReset_frame (q : Ppu) : (q.machineReset).frame = q.frame := rfl
@[simp] theorem Ppu.machineReset_bg (q : Ppu) : (q.machineReset).bg = q.bg := rfl
@[simp] theorem Ppu.machineReset_spr (q : Ppu) : (q.machineReset).spr = q.spr := rfl
@[simp] theorem Ppu.machineReset_frameBuffer (q : Ppu) : (q.machineReset).frameBuffer = q.frameBuffer := rfl

end Sys2Proof.Machine
end

