-- ==== Sys2Proof/Laws/Bus.lean ====
section
/-! SUPPORT. What the bus operations can do, said once: which region an address reaches, what a read returns and
leaves unchanged, what a write leaves unchanged, and the stack operations as plain RAM accesses. -/

namespace Sys2Proof.Machine

/-! The decode of an address. -/

theorem region_ram {a : Word} (h : a < 0x2000) : region a = .ram (a.toNat % 0x800) := by
  rw [region, if_pos h]

theorem region_ppu {a : Word} (h1 : 0x2000 ≤ a) (h2 : a < 0x4000) : region a = .ppuReg (a.setWidth 3) := by
  have h : ¬a < 0x2000 := by bv_omega
  rw [region, if_neg h, if_pos h2]

theorem region_cart {a : Word} (h : 0x4020 ≤ a) : region a = .cart := by
  have h1 : ¬a < 0x2000 := by bv_omega
  have h2 : ¬a < 0x4000 := by bv_omega
  have h3 : a ≠ 0x4014 := by bv_omega
  have h4 : a ≠ 0x4016 := by bv_omega
  have h5 : a ≠ 0x4017 := by bv_omega
  have h6 : ¬a < 0x4020 := by bv_omega
  rw [region, if_neg h1, if_neg h2, if_neg h3, if_neg h4, if_neg h5, if_neg h6]

theorem region_apu {a : Word} (h1 : 0x4000 ≤ a) (h2 : a < 0x4020) (h3 : a ≠ 0x4014) (h4 : a ≠ 0x4016)
    (h5 : a ≠ 0x4017) : region a = .apu := by
  have h6 : ¬a < 0x2000 := by bv_omega
  have h7 : ¬a < 0x4000 := by bv_omega
  rw [region, if_neg h6, if_neg h7, if_neg h3, if_neg h4, if_neg h5, if_pos h2]

/-! Reads. -/

/-- A read of internal RAM changes nothing (R102). -/
theorem cpuRead_ram {a : Word} (h : a < 0x2000) (s : State) : cpuRead a s = (s.ram.read (a.toNat % 0x800), s) := by
  simp [cpuRead, region_ram h]

/-- A read of the cartridge window changes nothing (R565). -/
theorem cpuRead_cart {a : Word} (h : 0x4020 ≤ a) (s : State) : cpuRead a s = (s.cart.cpuRead a, s) := by
  simp [cpuRead, region_cart h]

/-- A read of the APU window returns 0 and changes nothing (R104). -/
theorem cpuRead_apu {a : Word} (h1 : 0x4000 ≤ a) (h2 : a < 0x4020) (h4 : a ≠ 0x4016) (h5 : a ≠ 0x4017) (s : State) :
    cpuRead a s = (0, s) := by
  by_cases h3 : a = 0x4014
  · subst h3; rfl
  · simp [cpuRead, region_apu h1 h2 h3 h4 h5]

/-- A read of a PPU register acts on the PPU alone (R103). -/
theorem cpuRead_ppu {a : Word} (h1 : 0x2000 ≤ a) (h2 : a < 0x4000) (s : State) :
    cpuRead a s = ((s.ppu.regRead s.cart (a.setWidth 3)).1, s.setPpu (s.ppu.regRead s.cart (a.setWidth 3)).2) := by
  simp [cpuRead, region_ppu h1 h2, State.setPpu]

@[simp] theorem cpuRead_cpu (a : Word) (s : State) : (cpuRead a s).2.cpu = s.cpu := by
  unfold cpuRead; cases region a <;> rfl

@[simp] theorem cpuRead_ram_kept (a : Word) (s : State) : (cpuRead a s).2.ram = s.ram := by
  unfold cpuRead; cases region a <;> rfl

@[simp] theorem cpuRead_cart_kept (a : Word) (s : State) : (cpuRead a s).2.cart = s.cart := by
  unfold cpuRead; cases region a <;> rfl

@[simp] theorem cpuRead_sync (a : Word) (s : State) : (cpuRead a s).2.sync = s.sync := by
  unfold cpuRead; cases region a <;> rfl

/-- A read of an address backed by memory gives the same byte after any bus read. -/
theorem peek_after_read (a b : Word) (s : State) (h : a < 0x2000 ∨ 0x4020 ≤ a) :
    peek (cpuRead b s).2 a = peek s a := by
  unfold peek
  rcases h with h | h
  · rw [cpuRead_ram h, cpuRead_ram h]; simp
  · rw [cpuRead_cart h, cpuRead_cart h]; simp

/-! Writes. -/

/-- A write of internal RAM sets one cell (R102). -/
theorem cpuWrite_ram {a : Word} (h : a < 0x2000) (v : Byte) (s : State) :
    cpuWrite a v s = { s with ram := s.ram.write (a.toNat % 0x800) v } := by
  simp [cpuWrite, region_ram h]

/-- A write to the cartridge window acts on the cartridge alone (R106). -/
theorem cpuWrite_cart {a : Word} (h : 0x4020 ≤ a) (v : Byte) (s : State) :
    cpuWrite a v s = { s with cart := s.cart.cpuWrite a v } := by
  simp [cpuWrite, region_cart h]

/-- A DMA copy changes OAM, and what reading a device changes, and nothing else. -/
theorem dmaCopy_kept (page : Byte) (n : Nat) (s : State) :
    (dmaCopy page n s).cpu = s.cpu ∧ (dmaCopy page n s).ram = s.ram ∧ (dmaCopy page n s).cart = s.cart ∧
      (dmaCopy page n s).sync = s.sync := by
  induction n generalizing s with
  | zero => exact ⟨rfl, rfl, rfl, rfl⟩
  | succ n ih => simp [dmaCopy, ih]

@[simp] theorem cpuWrite_cpu (a : Word) (v : Byte) (s : State) : (cpuWrite a v s).cpu = s.cpu := by
  unfold cpuWrite; cases region a <;> simp [oamDma, dmaCopy_kept]

@[simp] theorem cpuWrite_sync (a : Word) (v : Byte) (s : State) : (cpuWrite a v s).sync = s.sync := by
  unfold cpuWrite; cases region a <;> simp [oamDma, dmaCopy_kept]

/-! The stack (10_state.md R45, R46): page 1 is internal RAM, so a push is one RAM write and a pull one RAM read. -/

theorem stackAddr_toNat (sp : Byte) : (stackAddr sp).toNat = 256 + sp.toNat := by simp [stackAddr, word_toNat]

theorem stackAddr_lt (sp : Byte) : stackAddr sp < 0x2000 := by
  have := sp.isLt
  simp only [BitVec.lt_def, stackAddr_toNat]
  simp; omega

theorem stackAddr_index (sp : Byte) : (stackAddr sp).toNat % 0x800 = 256 + sp.toNat := by
  have := sp.isLt
  rw [stackAddr_toNat]; omega

theorem zeroPage_toNat (a : Byte) : (zeroPage a).toNat = a.toNat := by simp [zeroPage, word_toNat]

theorem zeroPage_lt (a : Byte) : zeroPage a < 0x2000 := by
  have := a.isLt
  simp only [BitVec.lt_def, zeroPage_toNat]
  simp; omega

theorem zeroPage_index (a : Byte) : (zeroPage a).toNat % 0x800 = a.toNat := by
  have := a.isLt
  rw [zeroPage_toNat]; omega

/-- A push writes one byte of page 1 and decrements S. -/
theorem push_eq (v : Byte) (s : State) :
    push v s =
      { s with ram := s.ram.write (256 + s.cpu.sp.toNat) v, cpu := { s.cpu with sp := s.cpu.sp - 1 } } := by
  simp [push, cpuWrite_ram (stackAddr_lt _), stackAddr_index, State.setSp]

/-- A pull increments S and reads one byte of page 1. -/
theorem pull_eq (s : State) :
    pull s = (s.ram.read (256 + (s.cpu.sp + 1).toNat), s.setSp (s.cpu.sp + 1)) := by
  simp [pull, cpuRead_ram (stackAddr_lt _), stackAddr_index]

/-- A zero-page pointer is two RAM reads and changes nothing (R163, R164). -/
theorem readPointer_eq (p : Byte) (s : State) :
    readPointer p s = (word (s.ram.read (p + 1).toNat) (s.ram.read p.toNat), s) := by
  simp [readPointer, cpuRead_ram (zeroPage_lt _), zeroPage_index]

/-- Computing an effective address changes nothing: the pointer modes read internal RAM only. -/
@[simp] theorem locate_state (p : Place) (s : State) : (locate p s).2 = s := by
  cases p <;> simp [locate, readPointer_eq]

/-- Reading an operand leaves the CPU registers alone. -/
@[simp] theorem loadSource_cpu (src : Source) (s : State) : (loadSource src s).s.cpu = s.cpu := by
  cases src <;> simp [loadSource]

@[simp] theorem loadSource_ram (src : Source) (s : State) : (loadSource src s).s.ram = s.ram := by
  cases src <;> simp [loadSource]

@[simp] theorem loadSource_cart (src : Source) (s : State) : (loadSource src s).s.cart = s.cart := by
  cases src <;> simp [loadSource]

/-- A jump through a vector in the cartridge window sets PC and changes nothing else (R117). -/
theorem jumpVector_eq {vector : Word} (h : 0x4020 ≤ vector) (h1 : 0x4020 ≤ vector + 1) (s : State) :
    jumpVector vector s = s.setPc (word (s.cart.cpuRead (vector + 1)) (s.cart.cpuRead vector)) := by
  simp only [jumpVector, cpuRead16, cpuRead_cart h, cpuRead_cart h1]

/-- Taking an interrupt: three bytes on the stack, I set, PC from the vector, all else unchanged (60_exceptions.md
R671). -/
theorem takeInterrupt_eq (b : Bool) (ret vector : Word) (h : 0x4020 ≤ vector) (h1 : 0x4020 ≤ vector + 1) (s : State) :
    takeInterrupt b ret vector s =
      { s with
        ram :=
          ((s.ram.write (256 + s.cpu.sp.toNat) (hiByte ret)).write (256 + (s.cpu.sp - 1).toNat) (loByte ret)).write
            (256 + (s.cpu.sp - 1 - 1).toNat) (s.cpu.p.toByte b)
        cpu :=
          { s.cpu with
            sp := s.cpu.sp - 1 - 1 - 1
            p := { s.cpu.p with i := true }
            pc := word (s.cart.cpuRead (vector + 1)) (s.cart.cpuRead vector) } } := by
  simp [takeInterrupt, push16, push_eq, jumpVector_eq h h1, State.setP, State.setPc]

/-- Returning from an interrupt: three bytes off the stack, into P and PC (R672). -/
theorem returnFromInterrupt_eq (s : State) :
    returnFromInterrupt s =
      { s with
        cpu :=
          { s.cpu with
            sp := s.cpu.sp + 1 + 1 + 1
            p := Status.ofByte (s.ram.read (256 + (s.cpu.sp + 1).toNat))
            pc :=
              word (s.ram.read (256 + (s.cpu.sp + 1 + 1 + 1).toNat))
                (s.ram.read (256 + (s.cpu.sp + 1 + 1).toNat)) } } := by
  simp [returnFromInterrupt, pull_eq, pull16, State.setP, State.setPc, State.setSp]

/-- `cpu.reset()` sets the CPU registers, from memory only the vector, and changes nothing else (R661). -/
theorem cpuReset_eq (s : State) :
    cpuReset s =
      { s with
        cpu :=
          { s.cpu.resetRegisters with
            pc := word (s.cart.cpuRead 0xFFFD) (s.cart.cpuRead 0xFFFC), cycles := s.cpu.cycles + 7 } } := by
  have h : (0x4020 : Word) ≤ resetVector := by decide
  have h1 : (0x4020 : Word) ≤ resetVector + 1 := by decide
  rw [cpuReset, jumpVector_eq h h1]
  rfl

end Sys2Proof.Machine
end

