-- ==== Sys2Proof/Laws/Flags.lean ====
section
/-! SUPPORT. Each flag computation of Machine/Flags.lean as arithmetic on numbers (the formulas of Machine/Rules.lean):
`setNZ`, the compare, the adder, the shifts and rotates, and the status byte. -/

namespace Sys2Proof.Machine

theorem bit_eq_testBit {w : Nat} (v : BitVec w) (i : Nat) : bit v i = v.toNat.testBit i := (BitVec.testBit_toNat v).symm

theorem bit_seven (v : Byte) : bit v 7 = decide (128 ≤ v.toNat) := by
  have := v.isLt
  have h : bit v 7 = v.msb := (BitVec.msb_eq_getLsbD_last v).symm
  rw [h, BitVec.msb_eq_decide]

theorem bit_zero (v : Byte) : bit v 0 = decide (v.toNat % 2 = 1) := by
  rw [bit_eq_testBit, Nat.testBit_zero]

theorem byte_eq_iff (v u : Byte) : (v == u) = decide (v.toNat = u.toNat) := by
  rw [Bool.eq_iff_iff]; simp [BitVec.toNat_inj]

theorem Status.setNZ_eq (p : Status) (v : Byte) : p.setNZ v = nzOf p v := by
  simp only [Status.setNZ, nzOf, bit_seven, byte_eq_iff]; rfl

theorem Cpu.loadA_eq (c : Cpu) (v : Byte) : c.loadA v = withA c v := by simp [Cpu.loadA, withA, Status.setNZ_eq]

theorem Cpu.loadX_eq (c : Cpu) (v : Byte) : c.loadX v = withX c v := by simp [Cpu.loadX, withX, Status.setNZ_eq]

theorem Cpu.loadY_eq (c : Cpu) (v : Byte) : c.loadY v = withY c v := by simp [Cpu.loadY, withY, Status.setNZ_eq]

theorem Status.compare_eq (p : Status) (r m : Byte) : p.compare r m = comparedTo p r m := by
  simp only [Status.compare, comparedTo, bit_seven, byte_eq_iff, BitVec.toNat_sub]
  congr 2
  simp only [eq_iff_iff]
  have := m.isLt
  omega

theorem shiftLeft_eq (v : Byte) : shiftLeft v = { r := doubled v false, c := topBit v } := by
  simp only [shiftLeft, doubled, topBit, bit_seven, bitNat]
  congr 1

theorem shiftRight_eq (v : Byte) : shiftRight v = { r := halved v false, c := lowBit v } := by
  have := v.isLt
  simp only [shiftRight, halved, lowBit, bit_zero, bitNat]
  congr 1
  apply BitVec.eq_of_toNat_eq
  simp [Nat.shiftRight_eq_div_pow]
  omega

theorem rotateLeft_eq (v : Byte) (c0 : Bool) : rotateLeft v c0 = { r := doubled v c0, c := topBit v } := by
  simp only [rotateLeft, topBit, bit_seven]
  congr 1
  revert v c0
  decide +kernel

theorem rotateRight_eq (v : Byte) (c0 : Bool) : rotateRight v c0 = { r := halved v c0, c := lowBit v } := by
  simp only [rotateRight, lowBit, bit_zero]
  congr 1
  revert v c0
  decide +kernel

/-- The adder's result and flags by the exact sum and the exact signed sum (R250). -/
theorem add8_eq (a m : Byte) (cin : Bool) :
    add8 a m cin =
      { r := BitVec.ofNat 8 (sumOf a m cin)
        c := decide (256 ≤ sumOf a m cin)
        v := outsideByte (a.toInt + m.toInt + bitNat cin) } := by
  have ha := a.isLt
  have hm := m.isLt
  have hc : (BitVec.ofBool cin).toNat = bitNat cin := by cases cin <;> rfl
  have hc1 : bitNat cin ≤ 1 := by cases cin <;> decide
  have hsum : (a.setWidth 9 + m.setWidth 9 + (BitVec.ofBool cin).setWidth 9 : BitVec 9).toNat = sumOf a m cin := by
    simp only [sumOf, BitVec.toNat_add, BitVec.toNat_setWidth, hc]
    omega
  have hr : ((a.setWidth 9 + m.setWidth 9 + (BitVec.ofBool cin).setWidth 9 : BitVec 9).setWidth 8 : Byte) =
      BitVec.ofNat 8 (sumOf a m cin) := by
    apply BitVec.eq_of_toNat_eq
    rw [BitVec.toNat_setWidth, hsum, BitVec.toNat_ofNat]
  simp only [add8, hr]
  congr 1
  · rw [bit_eq_testBit, hsum, Nat.testBit_eq_decide_div_mod_eq]
    simp only [sumOf]
    congr 1
    simp only [eq_iff_iff]
    omega
  · have hx : ∀ x y z : Byte, bit ((x ^^^ z) &&& (y ^^^ z)) 7 = ((bit x 7 != bit z 7) && (bit y 7 != bit z 7)) := by
      intro x y z; simp [bit]
    rw [hx]
    simp only [bit_seven, outsideByte, BitVec.toInt_eq_toNat_cond, sumOf, BitVec.toNat_ofNat]
    rw [Bool.eq_iff_iff]
    simp only [Bool.and_eq_true, bne_iff_ne, ne_eq, decide_eq_decide, decide_eq_true_eq]
    split <;> split <;> omega

theorem Cpu.addA_eq (c : Cpu) (m : Byte) (cin : Bool) : c.addA m cin = addedTo c m cin := by
  simp only [Cpu.addA, add8_eq, Status.ofSum, Status.setNZ_eq, addedTo]

/-- Adding the complement with carry is subtracting with borrow (R252). -/
theorem Cpu.subA_eq (c : Cpu) (m : Byte) : c.addA (m ^^^ 0xFF) c.p.c = subtractedFrom c m := by
  have ha := c.a.isLt
  have hm := m.isLt
  have hn : (m ^^^ 0xFF).toNat = 255 - m.toNat := by
    have : m ^^^ 0xFF = ~~~m := by rw [← BitVec.allOnes_xor, BitVec.xor_comm]; rfl
    rw [this, BitVec.toNat_not]
  have hc1 : bitNat c.p.c ≤ 1 := by cases c.p.c <;> decide
  have hr : (BitVec.ofNat 8 (sumOf c.a (m ^^^ 0xFF) c.p.c) : Byte) =
      BitVec.ofNat 8 (c.a.toNat + 512 - m.toNat - (1 - bitNat c.p.c)) := by
    apply BitVec.eq_of_toNat_eq
    simp only [sumOf, hn, BitVec.toNat_ofNat]
    omega
  have hi : c.a.toInt + (m ^^^ 0xFF).toInt + (bitNat c.p.c : Int) =
      c.a.toInt - m.toInt - ((1 - bitNat c.p.c : Nat) : Int) := by
    simp only [BitVec.toInt_eq_toNat_cond, hn]
    split <;> split <;> omega
  rw [Cpu.addA_eq]
  simp only [addedTo, subtractedFrom, hr, hi]
  congr 3
  simp only [sumOf, hn, eq_iff_iff]
  omega

theorem Status.toByte_toNat (p : Status) (b : Bool) :
    (p.toByte b).toNat =
      128 * bitNat p.n + 64 * bitNat p.v + 32 + 16 * bitNat b + 8 * bitNat p.d + 4 * bitNat p.i + 2 * bitNat p.z +
        bitNat p.c := by
  obtain ⟨n, v, d, i, z, c⟩ := p
  revert n v d i z c b
  decide +kernel

theorem Status.ofByte_eq (v : Byte) :
    Status.ofByte v =
      { n := v.toNat.testBit 7, v := v.toNat.testBit 6, d := v.toNat.testBit 3, i := v.toNat.testBit 2
        z := v.toNat.testBit 1, c := v.toNat.testBit 0 } := by
  simp only [Status.ofByte, bit_eq_testBit]

/-- Loading a status byte gives back the flags it was formed from (R37). -/
@[simp] theorem Status.ofByte_toByte (p : Status) (b : Bool) : Status.ofByte (p.toByte b) = p := by
  obtain ⟨n, v, d, i, z, c⟩ := p
  revert n v d i z c b
  decide +kernel

end Sys2Proof.Machine
end

