-- ==== Sys2Proof/Laws/Shapes.lean ====
section
/-! SUPPORT. What each shared shape of instruction can do, said once (30_encoding.md R175), in the form the statements
use (Machine/Rules.lean), and the same for `exec` of every instruction of that shape. -/

namespace Sys2Proof.Machine

theorem stallCycles_eq (ea : Word) (base : Nat) (s : State) : dmaStall ea base s = stallCycles ea base s.cpu.cycles := by
  have h : (ea = 0x4014) ↔ ea.toNat = 0x4014 := by
    constructor
    · intro h; subst h; rfl
    · intro h; exact BitVec.eq_of_toNat_eq h
  simp only [dmaStall, stallCycles, h]

/-- A read instruction (R175): the operand is loaded, `g` of it gives the registers. -/
theorem readInstr_eq {f : Byte → Cpu → Cpu} {src : Source} {s : State} (i : Instr) {g : Byte → Cpu}
    (hg : ∀ m, f m s.cpu = { g m with cycles := s.cpu.cycles }) :
    readInstr f src (rowCost i) s = readNext i s (loadSource src s) (g (loadSource src s).m) := by
  simp [readInstr, readNext, State.mapCpu, State.charge, hg]

/-- A write instruction (R175). -/
theorem writeInstr_eq (val : Cpu → Byte) (p : Place) (s : State) (i : Instr) :
    writeInstr val p (rowCost i) s = writeNext i s s (locate p s).1.ea (val s.cpu) s.cpu := by
  simp [writeInstr, writeNext, State.charge, stallCycles_eq, rowCost, Nat.add_assoc]

/-- A read-modify-write instruction (R175). -/
theorem modifyInstr_eq {f : Byte → Cpu → Modified} {p : Place} {s : State} (i : Instr) {g : Byte → Byte × Cpu}
    (hg : ∀ m, f m s.cpu = { r := (g m).1, cpu := { (g m).2 with cycles := s.cpu.cycles } }) :
    modifyInstr f p (rowCost i) s = modifyNext i p s g := by
  simp [modifyInstr, modifyNext, writeNext, State.charge, State.setCpu, stallCycles_eq, rowCost, hg, Nat.add_assoc]

/-- The accumulator form (R167). -/
theorem modifyAcc_eq {f : Byte → Cpu → Modified} {s : State} (i : Instr) {g : Byte → Byte × Cpu}
    (hg : ∀ m, f m s.cpu = { r := (g m).1, cpu := { (g m).2 with cycles := s.cpu.cycles } }) :
    modifyAcc f (rowCost i) s = registerNext i s { (g s.cpu.a).2 with a := (g s.cpu.a).1 } := by
  simp [modifyAcc, registerNext, State.charge, State.setCpu, rowCost, hg]

/-- An instruction on registers alone. -/
theorem registerInstr_eq {f : Cpu → Cpu} {s : State} (i : Instr) {c : Cpu}
    (hc : f s.cpu = { c with cycles := s.cpu.cycles }) :
    registerInstr f (rowCost i) s = registerNext i s c := by
  simp [registerInstr, registerNext, State.mapCpu, State.charge, rowCost, hc]

/-- A high-byte store (47_unofficial.md R414): `val h c` is a register combination ANDed with `h`. -/
theorem shStore_eq {before : Cpu → Cpu} {val : Byte → Cpu → Byte} {p : Place} {s : State} (i : Instr) {v : Byte}
    {c : Cpu} (hb : before s.cpu = { c with cycles := s.cpu.cycles }) (hv : ∀ h, val h (before s.cpu) = v &&& h) :
    shStore before val p (rowCost i) s =
      writeNext i s { s with cpu := { c with cycles := s.cpu.cycles } } (highStoreAddr p s v) (highStoreValue p s v)
        c := by
  have hval : val (hiByte (locate p s).1.base + 1) (before s.cpu) = highStoreValue p s v := by
    rw [hv, highStoreValue]
    congr 1
    apply BitVec.eq_of_toNat_eq
    simp [BitVec.toNat_add, hiByte_toNat]
  have haddr : (if (locate p s).1.crossed = true then word (highStoreValue p s v) (loByte (locate p s).1.ea)
      else (locate p s).1.ea) = highStoreAddr p s v := by
    have hlt := (highStoreValue p s v).isLt
    simp only [highStoreAddr]
    split
    · apply BitVec.eq_of_toNat_eq
      simp only [word_toNat, loByte_toNat, BitVec.toNat_ofNat]
      omega
    · rfl
  simp only [shStore, locate_state, State.mapCpu]
  rw [hval, haddr]
  simp only [writeNext, State.charge, stallCycles_eq, cpuWrite_cpu, hb, rowCost, Nat.add_assoc]

/-- A branch (45_control.md R321). -/
theorem branchInstr_eq (cond : Status → Bool) (d : Byte) (s : State) :
    branchInstr cond d (.fixed 2) s =
      let target : Word := BitVec.ofInt 16 (s.cpu.pc.toNat + d.toInt)
      if cond s.cpu.p = true then
        { s with
          cpu :=
            { s.cpu with
              pc := target
              cycles := s.cpu.cycles + 3 + (if s.cpu.pc.toNat / 256 = target.toNat / 256 then 0 else 1) } }
      else { s with cpu := { s.cpu with cycles := s.cpu.cycles + 2 } } := by
  have ht : s.cpu.pc + d.signExtend 16 = BitVec.ofInt 16 (s.cpu.pc.toNat + d.toInt) := by
    apply BitVec.eq_of_toInt_eq
    rw [BitVec.toInt_add, BitVec.toInt_ofInt, BitVec.toInt_signExtend_of_le (by omega), BitVec.toInt_eq_toNat_bmod,
      Int.bmod_add_bmod]
  have hx : ∀ a b : Word, (hiByte a != hiByte b) = !decide (a.toNat / 256 = b.toNat / 256) := by
    intro a b
    rw [← hiByte_toNat, ← hiByte_toNat, bne, byte_eq_iff]
  simp only [branchInstr, branchTarget, ht, hx, State.setPc, State.charge, Cost.fixed]
  split
  · congr 2
    split <;> simp_all [bitNat]
  · rfl

/-- The operand of an instruction whose mnemonic takes memory operands only. -/
theorem memory_operand (i : Instr)
    (h : (modesOf i.mnemonic).all
      (fun m => !([Mode.imp, .acc, .imm, .ind, .rel].contains m)) = true) :
    ∃ p : Place, i.operand = .mem p := by
  have hm := instr_mode_mem i
  rw [List.contains_iff_mem] at hm
  have := List.all_eq_true.mp h _ hm
  cases ho : i.operand with
  | mem p => exact ⟨p, rfl⟩
  | _ => rw [ho] at this; simp [Operand.mode] at this

/-- The operand of an instruction whose mnemonic takes immediate or memory operands. -/
theorem source_operand (i : Instr)
    (h : (modesOf i.mnemonic).all (fun m => !([Mode.imp, .acc, .ind, .rel].contains m)) = true) :
    ∃ src : Source, i.operand = src.operand := by
  have hm := instr_mode_mem i
  rw [List.contains_iff_mem] at hm
  have := List.all_eq_true.mp h _ hm
  cases ho : i.operand with
  | mem p => exact ⟨.mem p, rfl⟩
  | imm m => exact ⟨.imm m, rfl⟩
  | _ => rw [ho] at this; simp [Operand.mode] at this

end Sys2Proof.Machine
end

