-- ==== Sys2Proof/Laws/Accesses.lean ====
section
/-! SUPPORT. Every instruction is a sequence of bus accesses and register changes (30_encoding.md R175), said once: a
property that reads, writes and register changes keep is kept by `exec`, by interrupt entry and by `cpuReset`. -/

namespace Sys2Proof.Machine

/-- A register change an instruction may make: the IRQ line stays and a halt is not lifted (10_state.md R47, R49). -/
def Cpu.mayBecome (c d : Cpu) : Prop := d.irqLine = c.irqLine ∧ (c.halted = true → d.halted = true)

theorem Cpu.mayBecome_refl (c : Cpu) : c.mayBecome c := ⟨rfl, id⟩

/-- `t` follows from `s` by bus reads, bus writes and register changes. -/
inductive Accesses (s : State) : State → Prop
  | done : Accesses s s
  | read {t : State} (a : Word) : Accesses s t → Accesses s (cpuRead a t).2
  | write {t : State} (a : Word) (v : Byte) : Accesses s t → Accesses s (cpuWrite a v t)
  | regs {t : State} (c : Cpu) : t.cpu.mayBecome c → Accesses s t → Accesses s { t with cpu := c }

variable {s t : State}

/-- THE INDUCTION, once: what holds at the start and is kept by each access holds at the end. -/
theorem Accesses.keeps {P : State → Prop} (h : Accesses s t) (h0 : P s)
    (hr : ∀ (u : State) (a : Word), P u → P (cpuRead a u).2)
    (hw : ∀ (u : State) (a : Word) (v : Byte), P u → P (cpuWrite a v u))
    (hc : ∀ (u : State) (c : Cpu), u.cpu.mayBecome c → P u → P { u with cpu := c }) : P t := by
  induction h with
  | done => exact h0
  | read a _ ih => exact hr _ a ih
  | write a v _ ih => exact hw _ a v ih
  | regs c hm _ ih => exact hc _ c hm ih

theorem Accesses.trans {u : State} (h : Accesses s t) (h' : Accesses t u) : Accesses s u :=
  h'.keeps (P := Accesses s) h (fun _ a => .read a) (fun _ a v => .write a v) (fun _ c hm => .regs c hm)

theorem Accesses.charge (n : Nat) (h : Accesses s t) : Accesses s (t.charge n) := .regs _ ⟨rfl, id⟩ h

theorem Accesses.setPc (pc : Word) (h : Accesses s t) : Accesses s (t.setPc pc) := .regs _ ⟨rfl, id⟩ h

theorem Accesses.setP (p : Status) (h : Accesses s t) : Accesses s (t.setP p) := .regs _ ⟨rfl, id⟩ h

theorem Accesses.setSp (sp : Byte) (h : Accesses s t) : Accesses s (t.setSp sp) := .regs _ ⟨rfl, id⟩ h

theorem Accesses.push (v : Byte) (h : Accesses s t) : Accesses s (push v t) := (h.write _ v).setSp _

theorem Accesses.pull (h : Accesses s t) : Accesses s (pull t).2 := (h.setSp _).read _

theorem Accesses.pull16 (h : Accesses s t) : Accesses s (pull16 t).2 := h.pull.pull

theorem Accesses.locate (p : Place) (h : Accesses s t) : Accesses s (locate p t).2 := by rw [locate_state]; exact h

theorem Accesses.loadSource (src : Source) (h : Accesses s t) : Accesses s (loadSource src t).s := by
  cases src with
  | imm m => exact h
  | mem p => exact (h.locate p).read _

theorem Accesses.jumpVector (vector : Word) (h : Accesses s t) : Accesses s (jumpVector vector t) :=
  ((h.read _).read _).setPc _

theorem Accesses.takeInterrupt (b : Bool) (ret vector : Word) (h : Accesses s t) :
    Accesses s (takeInterrupt b ret vector t) :=
  (((h.push _).push _).push _).setP _ |>.jumpVector _

theorem Accesses.returnFromInterrupt (h : Accesses s t) : Accesses s (returnFromInterrupt t) :=
  ((h.pull.setP _).pull16).setPc _

theorem Accesses.readInstr {f : Byte → Cpu → Cpu} (hf : ∀ (m : Byte) (c : Cpu), c.mayBecome (f m c)) (src : Source) (cost : Cost)
    (h : Accesses s t) : Accesses s (readInstr f src cost t) :=
  ((h.loadSource src).regs _ (hf _ _)).charge _

theorem Accesses.writeInstr (val : Cpu → Byte) (p : Place) (cost : Cost) (h : Accesses s t) :
    Accesses s (writeInstr val p cost t) :=
  ((h.locate p).write _ _).charge _

theorem Accesses.modifyInstr {f : Byte → Cpu → Modified} (hf : ∀ (m : Byte) (c : Cpu), c.mayBecome (f m c).cpu) (p : Place)
    (cost : Cost) (h : Accesses s t) : Accesses s (modifyInstr f p cost t) := by
  refine ((((h.locate p).read _).write _ _).regs _ ?_).charge _
  simpa using hf (cpuRead (Sys2Proof.Machine.locate p t).1.ea t).1 t.cpu

theorem Accesses.modifyAcc {f : Byte → Cpu → Modified} (hf : ∀ (m : Byte) (c : Cpu), c.mayBecome (f m c).cpu) (cost : Cost)
    (h : Accesses s t) : Accesses s (modifyAcc f cost t) :=
  (h.regs { (f t.cpu.a t.cpu).cpu with a := (f t.cpu.a t.cpu).r } (hf t.cpu.a t.cpu)).charge _

theorem Accesses.registerInstr {f : Cpu → Cpu} (hf : ∀ c : Cpu, c.mayBecome (f c)) (cost : Cost) (h : Accesses s t) :
    Accesses s (registerInstr f cost t) :=
  (h.regs _ (hf _)).charge _

theorem Accesses.branchInstr (cond : Status → Bool) (d : Byte) (cost : Cost) (h : Accesses s t) :
    Accesses s (branchInstr cond d cost t) := by
  unfold Sys2Proof.Machine.branchInstr
  simp only
  split
  · exact (h.setPc _).charge _
  · exact h.charge _

theorem Accesses.shStore {before : Cpu → Cpu} (hb : ∀ c : Cpu, c.mayBecome (before c)) (val : Byte → Cpu → Byte) (p : Place)
    (cost : Cost) (h : Accesses s t) : Accesses s (shStore before val p cost t) :=
  (((h.locate p).regs _ (hb _)).write _ _).charge _

theorem Accesses.readBy {f : Byte → Cpu → Cpu} (hf : ∀ (m : Byte) (c : Cpu), c.mayBecome (f m c)) (o : Operand)
    (cost : Cost) (h : Accesses s t) : Accesses s (readBy f o cost t) := by
  cases o <;> first | exact h.readInstr hf _ _ | exact h

theorem Accesses.writeBy (val : Cpu → Byte) (o : Operand) (cost : Cost) (h : Accesses s t) :
    Accesses s (writeBy val o cost t) := by
  cases o <;> first | exact h.writeInstr _ _ _ | exact h

theorem Accesses.modifyBy {f : Byte → Cpu → Modified} (hf : ∀ (m : Byte) (c : Cpu), c.mayBecome (f m c).cpu)
    (o : Operand) (cost : Cost) (h : Accesses s t) : Accesses s (modifyBy f o cost t) := by
  cases o <;> first | exact h.modifyInstr hf _ _ | exact h.modifyAcc hf _ | exact h

theorem Accesses.highBy {before : Cpu → Cpu} (hb : ∀ c : Cpu, c.mayBecome (before c)) (val : Byte → Cpu → Byte)
    (o : Operand) (cost : Cost) (h : Accesses s t) : Accesses s (highBy before val o cost t) := by
  cases o <;> first | exact h.shStore hb _ _ _ | exact h

theorem Accesses.branchBy (cond : Status → Bool) (o : Operand) (cost : Cost) (h : Accesses s t) :
    Accesses s (branchBy cond o cost t) := by
  cases o <;> first | exact h.branchInstr _ _ _ | exact h

theorem Accesses.nopBy (o : Operand) (cost : Cost) (h : Accesses s t) : Accesses s (nopBy o cost t) := by
  cases o <;> first
    | exact h.readInstr (by intros; exact ⟨rfl, id⟩) _ _ | exact h.registerInstr (by intros; exact ⟨rfl, id⟩) _

theorem Accesses.jumpBy (mn : Mnemonic) (o : Operand) (cost : Cost) (h : Accesses s t) :
    Accesses s (jumpBy mn o cost t) := by
  unfold Sys2Proof.Machine.jumpBy
  split
  · exact ((h.push _).push _).setPc _ |>.charge _
  · exact (h.setPc _).charge _
  · exact ((h.read _).read _).setPc _ |>.charge _
  · exact h

/-- What any mnemonic does is a sequence of accesses. -/
theorem semantics_accesses (mn : Mnemonic) (o : Operand) (cost : Cost) (s : State) :
    Accesses s (semantics mn o cost s) := by
  have h0 : Accesses s s := .done
  cases mn with
  | lda | ldx | ldy | adc | sbc | and | ora | eor | cmp | cpx | cpy | bit | lax | las | anc | alr | arr | sbx | ane | lxa =>
    exact h0.readBy (by intros; exact ⟨rfl, id⟩) o cost
  | sta | stx | sty | sax => exact h0.writeBy _ o cost
  | asl | lsr | rol | ror | inc | dec | slo | rla | sre | rra | dcp | isc =>
    exact h0.modifyBy (by intros; exact ⟨rfl, id⟩) o cost
  | tax | tay | txa | tya | tsx | txs | inx | iny | dex | dey | clc | sec | cli | sei | clv | cld | sed =>
    exact h0.registerInstr (by intros; exact ⟨rfl, id⟩) cost
  | jam => exact h0.registerInstr (by intros; exact ⟨rfl, fun _ => rfl⟩) cost
  | bcc | bcs | beq | bne | bmi | bpl | bvc | bvs => exact h0.branchBy _ o cost
  | sha | shx | shy | tas => exact h0.highBy (by intros; exact ⟨rfl, id⟩) _ o cost
  | nop => exact h0.nopBy o cost
  | jmp | jsr => exact h0.jumpBy _ o cost
  | pha | php => exact (h0.push _).charge cost.base
  | pla => exact (h0.pull.regs ((pull s).2.cpu.loadA (pull s).1) ⟨rfl, id⟩).charge cost.base
  | plp => exact (h0.pull.setP _).charge cost.base
  | rts => exact (h0.pull16.setPc _).charge cost.base
  | rti => exact h0.returnFromInterrupt.charge cost.base
  | brk => exact (h0.takeInterrupt _ _ _).charge cost.base

/-- EVERY INSTRUCTION is a sequence of accesses. -/
theorem exec_accesses {i : Instr} (h : exec i s = .next t) : Accesses s t := by
  obtain ⟨j, hj, -, -, he⟩ := exec_admitted i
  rw [he, exec_eq j hj] at h
  cases h
  exact semantics_accesses _ _ _ s

theorem nmi_accesses (s : State) : Accesses s (nmi s) := by
  unfold nmi
  split
  · exact .done
  · exact (Accesses.done.takeInterrupt _ _ _).charge _

theorem irq_accesses (s : State) : Accesses s (irq s) := by
  unfold irq
  split
  · exact .done
  · exact (Accesses.done.takeInterrupt _ _ _).charge _

theorem fetchByte_accesses (h : Accesses s t) : Accesses s (fetchByte t).2 := (h.read _).setPc _

theorem fetchInstr_accesses (s : State) : Accesses s (fetchInstr s).2 := by
  have h0 : Accesses s (fetchByte s).2 := fetchByte_accesses .done
  unfold fetchInstr
  simp only
  split
  · exact h0
  · exact fetchByte_accesses h0
  · exact fetchByte_accesses (fetchByte_accesses h0)

/-- A CPU step is a sequence of accesses. -/
theorem cpuStep_accesses (h : cpuStep s = .next t) : Accesses s t := by
  unfold cpuStep at h
  split at h
  · cases h; exact Accesses.done.charge 1
  · exact (fetchInstr_accesses s).trans (exec_accesses h)

end Sys2Proof.Machine
end

