-- ==== Sys2Proof/Laws/Ppu.lean ====
section
/-! SUPPORT. What one PPU dot can do, part by part (spec/50_ppu.md R500): the fields each part leaves alone, and the
position, the status and the VBlank flags after a step. -/

namespace Sys2Proof.Machine

/-- What neither pipeline touches: registers, memories, position, flags of the frame, the frame buffer. -/
structure Ppu.SameOutside (p q : Ppu) : Prop where
  ctrl : q.ctrl = p.ctrl
  mask : q.mask = p.mask
  vblank : q.vblank = p.vblank
  sprite0Hit : q.sprite0Hit = p.sprite0Hit
  t : q.t = p.t
  x : q.x = p.x
  w : q.w = p.w
  readBuffer : q.readBuffer = p.readBuffer
  ioLatch : q.ioLatch = p.ioLatch
  nmiRequest : q.nmiRequest = p.nmiRequest
  oam : q.oam = p.oam
  palette : q.palette = p.palette
  ciram : q.ciram = p.ciram
  scanline : q.scanline = p.scanline
  dot : q.dot = p.dot
  frame : q.frame = p.frame
  frameBuffer : q.frameBuffer = p.frameBuffer

theorem Ppu.SameOutside.refl (p : Ppu) : p.SameOutside p := by constructor <;> rfl

theorem Ppu.SameOutside.trans {p q r : Ppu} (h : p.SameOutside q) (h' : q.SameOutside r) : p.SameOutside r where
  ctrl := h'.ctrl.trans h.ctrl
  mask := h'.mask.trans h.mask
  vblank := h'.vblank.trans h.vblank
  sprite0Hit := h'.sprite0Hit.trans h.sprite0Hit
  t := h'.t.trans h.t
  x := h'.x.trans h.x
  w := h'.w.trans h.w
  readBuffer := h'.readBuffer.trans h.readBuffer
  ioLatch := h'.ioLatch.trans h.ioLatch
  nmiRequest := h'.nmiRequest.trans h.nmiRequest
  oam := h'.oam.trans h.oam
  palette := h'.palette.trans h.palette
  ciram := h'.ciram.trans h.ciram
  scanline := h'.scanline.trans h.scanline
  dot := h'.dot.trans h.dot
  frame := h'.frame.trans h.frame
  frameBuffer := h'.frameBuffer.trans h.frameBuffer

theorem Ppu.bgFetchDot_same (p : Ppu) (c : Cart) : p.SameOutside (p.bgFetchDot c) := by
  unfold Ppu.bgFetchDot
  simp only
  split <;> constructor <;> rfl

theorem Ppu.bgScrollDot_same (p : Ppu) : p.SameOutside p.bgScrollDot := by
  unfold Ppu.bgScrollDot
  split
  · constructor <;> rfl
  · split
    · constructor <;> rfl
    · split <;> constructor <;> rfl

theorem Ppu.backgroundDot_same (p : Ppu) (c : Cart) : p.SameOutside (p.backgroundDot c) := by
  unfold Ppu.backgroundDot
  simp only
  split
  · exact (p.bgFetchDot_same c).trans (Ppu.bgScrollDot_same _)
  · exact p.bgScrollDot_same

theorem Ppu.spriteDot_same (p : Ppu) (c : Cart) : p.SameOutside (p.spriteDot c) := by
  unfold Ppu.spriteDot
  split
  · simp only
    split <;> constructor <;> rfl
  · exact Ppu.SameOutside.refl p

/-- The rendering part of a dot touches the pipelines, `v`, the OAM address and the overflow flag only. -/
theorem Ppu.renderDot_same (p : Ppu) (c : Cart) : p.SameOutside (p.renderDot c) := by
  unfold Ppu.renderDot
  split
  · exact (p.backgroundDot_same c).trans (Ppu.spriteDot_same _ c)
  · split
    · constructor <;> rfl
    · exact Ppu.SameOutside.refl p

theorem Ppu.outputPixel_kept (p : Ppu) (c : Cart) (x : Nat) :
    ∃ hit fb, p.outputPixel c x = { p with sprite0Hit := hit, frameBuffer := fb } := ⟨_, _, rfl⟩

/-- The pixel part changes the frame buffer and the sprite-zero flag only. -/
theorem Ppu.pixelDot_kept (p : Ppu) (c : Cart) :
    ∃ hit fb, p.pixelDot c = { p with sprite0Hit := hit, frameBuffer := fb } := by
  unfold Ppu.pixelDot
  split
  · exact p.outputPixel_kept c _
  · exact ⟨p.sprite0Hit, p.frameBuffer, rfl⟩

/-- `advance()` changes the position and the frame count only. -/
theorem Ppu.advance_kept (p : Ppu) :
    ∃ d l f, p.advance.1 = { p with dot := d, scanline := l, frame := f } := by
  unfold Ppu.advance
  split
  · exact ⟨_, _, _, rfl⟩
  · split
    · split
      · exact ⟨_, _, _, rfl⟩
      · exact ⟨_, _, p.frame, rfl⟩
    · exact ⟨_, p.scanline, p.frame, rfl⟩

/-- The VBlank boundaries change the three status flags and the NMI request only. -/
theorem Ppu.vblankDot_kept (p : Ppu) :
    ∃ vb hit ovf nmi,
      p.vblankDot = { p with vblank := vb, sprite0Hit := hit, spriteOverflow := ovf, nmiRequest := nmi } := by
  unfold Ppu.vblankDot
  split
  · exact ⟨_, p.sprite0Hit, p.spriteOverflow, _, rfl⟩
  · split
    · exact ⟨_, _, _, p.nmiRequest, rfl⟩
    · exact ⟨p.vblank, p.sprite0Hit, p.spriteOverflow, p.nmiRequest, rfl⟩

theorem Ppu.vblankDot_position (p : Ppu) :
    p.vblankDot.dot = p.dot ∧ p.vblankDot.scanline = p.scanline ∧ p.vblankDot.frame = p.frame ∧
      p.vblankDot.mask = p.mask ∧ p.vblankDot.ctrl = p.ctrl := by
  unfold Ppu.vblankDot
  split
  · exact ⟨rfl, rfl, rfl, rfl, rfl⟩
  · split <;> exact ⟨rfl, rfl, rfl, rfl, rfl⟩

/-- Up to `advance()`, a dot leaves the position and the control registers alone. -/
theorem Ppu.dotActions_position (p : Ppu) (c : Cart) :
    (p.dotActions c).dot = p.dot ∧ (p.dotActions c).scanline = p.scanline ∧
      (p.dotActions c).frame = p.frame ∧ (p.dotActions c).mask = p.mask ∧
      (p.dotActions c).ctrl = p.ctrl := by
  unfold Ppu.dotActions
  have h1 := Ppu.vblankDot_position ((p.renderDot c).pixelDot c)
  obtain ⟨hit, fb, h2⟩ := (p.renderDot c).pixelDot_kept c
  have h3 := p.renderDot_same c
  rw [h2] at h1 ⊢
  obtain ⟨a, b, d, e, f⟩ := h1
  exact ⟨a.trans h3.dot, b.trans h3.scanline, d.trans h3.frame, e.trans h3.mask, f.trans h3.ctrl⟩

/-- The pipelines, `v` and the OAM address after a dot are those its rendering part leaves (R500). -/
theorem Ppu.step_pipelines (p : Ppu) (c : Cart) :
    (p.step c).1.bg = (p.renderDot c).bg ∧ (p.step c).1.v = (p.renderDot c).v ∧
      (p.step c).1.spr = (p.renderDot c).spr ∧ (p.step c).1.oamAddr = (p.renderDot c).oamAddr := by
  obtain ⟨d, l, f, h1⟩ := (p.dotActions c).advance_kept
  obtain ⟨vb, hit, ovf, nmi, h2⟩ := ((p.renderDot c).pixelDot c).vblankDot_kept
  obtain ⟨hit', fb, h3⟩ := (p.renderDot c).pixelDot_kept c
  have h : p.dotActions c = ((p.renderDot c).pixelDot c).vblankDot := rfl
  rw [h2, h3] at h
  simp only [Ppu.step, h1]
  rw [h]
  exact ⟨rfl, rfl, rfl, rfl⟩

/-- `sprite_dot()` leaves the background pipeline and `v` alone. -/
theorem Ppu.spriteDot_background (p : Ppu) (c : Cart) : (p.spriteDot c).bg = p.bg ∧ (p.spriteDot c).v = p.v := by
  unfold Ppu.spriteDot
  split
  · simp only
    split <;> exact ⟨rfl, rfl⟩
  · exact ⟨rfl, rfl⟩

/-- `background_dot()` leaves the sprites, the OAM address and the overflow flag alone. -/
theorem Ppu.backgroundDot_sprites (p : Ppu) (c : Cart) :
    (p.backgroundDot c).spr = p.spr ∧ (p.backgroundDot c).oamAddr = p.oamAddr ∧
      (p.backgroundDot c).spriteOverflow = p.spriteOverflow := by
  unfold Ppu.backgroundDot Ppu.bgFetchDot Ppu.bgScrollDot
  simp only
  repeat' split
  all_goals exact ⟨rfl, rfl, rfl⟩

/-- `mask` and `ctrl` are never changed by a dot. -/
theorem Ppu.step_registers (p : Ppu) (c : Cart) :
    (p.step c).1.mask = p.mask ∧ (p.step c).1.ctrl = p.ctrl := by
  obtain ⟨-, -, -, hm, hc⟩ := p.dotActions_position c
  obtain ⟨d, l, f, h⟩ := (p.dotActions c).advance_kept
  simp only [Ppu.step, h]
  exact ⟨hm, hc⟩

theorem Ppu.skipsDot_congr {p q : Ppu} (hs : q.scanline = p.scanline) (hd : q.dot = p.dot) (hf : q.frame = p.frame)
    (hm : q.mask = p.mask) : q.skipsDot = p.skipsDot := by
  simp [Ppu.skipsDot, Ppu.rendering, hs, hd, hf, hm]

/-- The position after a dot, and frame-ready, depend on the position, the frame count and `mask` alone (R503). -/
theorem Ppu.step_position (p : Ppu) (c : Cart) :
    (p.step c).1.dot = p.advance.1.dot ∧ (p.step c).1.scanline = p.advance.1.scanline ∧
      (p.step c).1.frame = p.advance.1.frame ∧ (p.step c).2.frameReady = p.advance.2 := by
  obtain ⟨hd, hs, hf, hm, -⟩ := p.dotActions_position c
  simp only [Ppu.step]
  unfold Ppu.advance
  rw [Ppu.skipsDot_congr hs hd hf hm, hd, hs, hf]
  split
  · exact ⟨rfl, rfl, rfl, rfl⟩
  · split
    · split <;> exact ⟨rfl, rfl, rfl, rfl⟩
    · exact ⟨rfl, rfl, rfl, rfl⟩

/-- A request is never left standing after a dot (R500). -/
@[simp] theorem Ppu.step_nmiRequest (p : Ppu) (c : Cart) : (p.step c).1.nmiRequest = false := rfl

end Sys2Proof.Machine
end

