-- ==== Sys2Proof/Laws/Invariant.lean ====
section
/-! SUPPORT. Every operation keeps the state's invariant (`State.inv`): memories canonical and within their sizes,
positions and counters within their ranges. One lemma per shared operation. -/

namespace Sys2Proof.Machine

theorem Memory.ok_iff {w : Nat} {m : Memory w} {n : Nat} : Memory.ok m n = true ↔ m.wf = true ∧ m.below n = true := by
  simp [Memory.ok]

/-- A write within the size keeps a memory's form and size. -/
theorem Memory.ok_write {w : Nat} {m : Memory w} {n k : Nat} (h : Memory.ok m n = true) (hk : k < n) (v : BitVec w) :
    Memory.ok (m.write k v) n = true := by
  rw [Memory.ok_iff] at h ⊢
  exact ⟨Memory.wf_write h.1 k v, Memory.below_write h.2 hk v⟩

/-- The PPU's invariant, part by part. -/
theorem Ppu.inv_iff {p : Ppu} : p.inv = true ↔
    Memory.ok p.oam 256 = true ∧ Memory.ok p.palette 32 = true ∧ Memory.ok p.ciram 2048 = true ∧
      Memory.ok p.frameBuffer 61440 = true ∧ p.scanline ≤ 261 ∧ p.dot ≤ 340 ∧ p.spr.count ≤ 8 ∧
      p.spr.slots.length = 8 := by
  simp [Ppu.inv, and_assoc]

/-- The cartridge's invariant, part by part. -/
theorem Cart.inv_iff {c : Cart} : c.inv = true ↔
    1 ≤ c.prgBanks ∧ 1 ≤ c.chrBanks ∧ (c.chrIsRam = true → c.chrBanks = 1) ∧
      Memory.ok c.prgRom (16384 * c.prgBanks) = true ∧ Memory.ok c.chr (8192 * c.chrBanks) = true ∧
      Memory.ok c.prgRam 8192 = true ∧ Memory.ok c.fsVram 2048 = true := by
  simp only [Cart.inv, Bool.and_eq_true, Bool.or_eq_true, decide_eq_true_eq, Bool.not_eq_true', beq_iff_eq, and_assoc]
  cases c.chrIsRam <;> simp

/-- The state's invariant, part by part. -/
theorem State.inv_iff {s : State} : s.inv = true ↔
    Memory.ok s.ram 2048 = true ∧ s.ppu.inv = true ∧ s.cart.inv = true ∧ s.ctl1.cursor ≤ 8 ∧ s.ctl2.cursor ≤ 8 := by
  simp [State.inv, and_assoc]

/-! The PPU address space and registers. -/

/-- The index of a nametable cell. -/
def NtCell.index : NtCell → Nat
  | .ciram k => k
  | .fsVram k => k

theorem ntCell_lt (m : Mirroring) (n : BitVec 2) (i : BitVec 10) : (ntCell m n i).index < 2048 := by
  have := i.isLt
  unfold ntCell
  repeat' split
  all_goals
    simp only [NtCell.index]
    omega

theorem paletteIndex_lt (a : BitVec 14) : paletteIndex a < 32 := by
  unfold paletteIndex
  simp only
  split <;> omega

theorem Cart.ppuWrite_inv {c : Cart} (h : c.inv = true) {a : Nat} (ha : a < 0x2000) (v : Byte) :
    (c.ppuWrite a v).inv = true := by
  unfold Cart.ppuWrite
  split
  · next hr =>
    rw [Cart.inv_iff] at h ⊢
    obtain ⟨h1, h2, h3, h4, h5, h6, h7⟩ := h
    refine ⟨h1, h2, h3, h4, Memory.ok_write h5 ?_ v, h6, h7⟩
    have := h3 hr
    simp only [Cart.chrBanked, this, Nat.mod_one]
    omega
  · exact h

/-- A write to the PPU address space. -/
theorem Ppu.busWrite_inv {p : Ppu} {c : Cart} (hp : p.inv = true) (hc : c.inv = true) (a : BitVec 14) (v : Byte) :
    (p.busWrite c a v).1.inv = true ∧ (p.busWrite c a v).2.inv = true := by
  unfold Ppu.busWrite
  have hp' := Ppu.inv_iff.mp hp
  have hc' := Cart.inv_iff.mp hc
  split
  · next k hk =>
    refine ⟨hp, Cart.ppuWrite_inv hc ?_ v⟩
    unfold ppuRegion at hk
    split at hk
    · next ha => cases hk; exact ha
    · split at hk <;> cases hk
  · next k hk =>
    have hlt : k < 2048 := by
      unfold ppuRegion at hk
      split at hk
      · cases hk
      · split at hk
        · have := ntCell_lt c.mirroring (field a 10 2) (field a 0 10)
          simp only [PpuRegion.nametable.injEq] at hk
          rw [hk] at this
          exact this
        · cases hk
    refine ⟨?_, hc⟩
    rw [Ppu.inv_iff]
    exact ⟨hp'.1, hp'.2.1, Memory.ok_write hp'.2.2.1 hlt v, hp'.2.2.2⟩
  · next k hk =>
    have hlt : k < 2048 := by
      unfold ppuRegion at hk
      split at hk
      · cases hk
      · split at hk
        · have := ntCell_lt c.mirroring (field a 10 2) (field a 0 10)
          simp only [PpuRegion.nametable.injEq] at hk
          rw [hk] at this
          exact this
        · cases hk
    refine ⟨hp, ?_⟩
    rw [Cart.inv_iff]
    obtain ⟨h1, h2, h3, h4, h5, h6, h7⟩ := hc'
    exact ⟨h1, h2, h3, h4, h5, h6, Memory.ok_write h7 hlt v⟩
  · next k hk =>
    have hlt : k < 32 := by
      unfold ppuRegion at hk
      split at hk
      · cases hk
      · split at hk
        · cases hk
        · cases hk
          exact paletteIndex_lt a
    refine ⟨?_, hc⟩
    rw [Ppu.inv_iff]
    exact ⟨hp'.1, Memory.ok_write hp'.2.1 hlt _, hp'.2.2⟩

theorem Ppu.oamStore_inv {p : Ppu} (h : p.inv = true) (i b : Byte) : (p.oamStore i b).inv = true := by
  have h' := Ppu.inv_iff.mp h
  rw [Ppu.inv_iff]
  exact ⟨Memory.ok_write h'.1 i.isLt _, h'.2⟩

theorem Ppu.regRead_inv {p : Ppu} (h : p.inv = true) (c : Cart) (r : BitVec 3) : (p.regRead c r).2.inv = true := by
  unfold Ppu.regRead Ppu.readStatus Ppu.readOamData Ppu.readData
  split
  · exact h
  · split
    · exact h
    · split
      · simp only
        split <;> exact h
      · exact h

theorem Ppu.regWrite_inv {p : Ppu} {c : Cart} (hp : p.inv = true) (hc : c.inv = true) (r : BitVec 3) (v : Byte) :
    (p.regWrite c r v).1.inv = true ∧ (p.regWrite c r v).2.inv = true := by
  unfold Ppu.regWrite
  repeat' split
  · exact ⟨hp, hc⟩
  · exact ⟨hp, hc⟩
  · exact ⟨hp, hc⟩
  · exact ⟨hp, hc⟩
  · exact ⟨Ppu.oamStore_inv hp _ _, hc⟩
  · refine ⟨?_, hc⟩
    unfold Ppu.writeScroll
    split <;> exact hp
  · refine ⟨?_, hc⟩
    unfold Ppu.writeAddr
    split <;> exact hp
  · exact Ppu.busWrite_inv hp hc _ v

/-! The cartridge, the controllers and the CPU bus. -/

theorem Cart.cpuWrite_inv {c : Cart} (h : c.inv = true) (a : Word) (v : Byte) : (c.cpuWrite a v).inv = true := by
  unfold Cart.cpuWrite
  split
  · exact h
  · split
    · next h2 =>
      rw [Cart.inv_iff] at h ⊢
      obtain ⟨h1, h2', h3, h4, h5, h6, h7⟩ := h
      refine ⟨h1, h2', h3, h4, h5, Memory.ok_write h6 ?_ v, h7⟩
      have : a.toNat < 0x8000 := h2
      omega
    · split <;> exact h

theorem Controller.dataRead_cursor {ctl : Controller} (h : ctl.cursor ≤ 8) (port : Port) (n : Nat) :
    (ctl.dataRead port n).ctl.cursor ≤ 8 := by
  unfold Controller.dataRead
  split
  · exact h
  · split
    · simpa using by omega
    · exact h

theorem Controller.strobeWrite_cursor {ctl : Controller} (h : ctl.cursor ≤ 8) (v : Byte) :
    (ctl.strobeWrite v).cursor ≤ 8 := by
  unfold Controller.strobeWrite
  simp only
  split <;> omega

/-- A bus read keeps the invariant. -/
theorem cpuRead_inv {s : State} (h : s.inv = true) (a : Word) : (cpuRead a s).2.inv = true := by
  have h' := State.inv_iff.mp h
  obtain ⟨h1, h2, h3, h4, h5⟩ := h'
  unfold cpuRead
  split
  · exact h
  · rw [State.inv_iff]; exact ⟨h1, Ppu.regRead_inv h2 _ _, h3, h4, h5⟩
  · exact h
  · rw [State.inv_iff]; exact ⟨h1, h2, h3, Controller.dataRead_cursor h4 _ _, h5⟩
  · rw [State.inv_iff]; exact ⟨h1, h2, h3, h4, Controller.dataRead_cursor h5 _ _⟩
  · exact h
  · exact h

theorem oamDma_inv {s : State} (h : s.inv = true) (page : Byte) : (oamDma page s).inv = true := by
  unfold oamDma
  suffices ∀ (n : Nat) (u : State), u.inv = true → (dmaCopy page n u).inv = true from this 256 s h
  intro n
  induction n with
  | zero => exact fun u hu => hu
  | succ n ih =>
    intro u hu
    refine ih _ ?_
    have hr := State.inv_iff.mp (cpuRead_inv hu (word page (BitVec.ofNat 8 (255 - n))))
    rw [State.inv_iff]
    exact ⟨hr.1, Ppu.oamStore_inv hr.2.1 _ _, hr.2.2⟩

/-- A bus write keeps the invariant. -/
theorem cpuWrite_inv {s : State} (h : s.inv = true) (a : Word) (v : Byte) : (cpuWrite a v s).inv = true := by
  have h' := State.inv_iff.mp h
  obtain ⟨h1, h2, h3, h4, h5⟩ := h'
  unfold cpuWrite
  split
  · next k hk =>
    have hlt : k < 2048 := by
      unfold region at hk
      split at hk
      · cases hk; omega
      · (repeat' split at hk) <;> cases hk
    rw [State.inv_iff]; exact ⟨Memory.ok_write h1 hlt v, h2, h3, h4, h5⟩
  · have := Ppu.regWrite_inv h2 h3 (by assumption) v
    rw [State.inv_iff]; exact ⟨h1, this.1, this.2, h4, h5⟩
  · exact oamDma_inv h v
  · rw [State.inv_iff]
    exact ⟨h1, h2, h3, Controller.strobeWrite_cursor h4 _, Controller.strobeWrite_cursor h5 _⟩
  · exact h
  · exact h
  · rw [State.inv_iff]; exact ⟨h1, h2, Cart.cpuWrite_inv h3 _ _, h4, h5⟩

/-- Any sequence of accesses keeps the invariant, so every CPU action does. -/
theorem Accesses.inv {s t : State} (h : Accesses s t) (hs : s.inv = true) : t.inv = true :=
  h.keeps (P := fun u => u.inv = true) hs (fun _ a hu => cpuRead_inv hu a) (fun _ a v hu => cpuWrite_inv hu a v)
    fun _ _ _ hu => hu

/-- The CPU registers are no part of the invariant. -/
theorem State.inv_setCpu (s : State) (c : Cpu) : { s with cpu := c }.inv = s.inv := rfl

theorem cpuReset_inv {s : State} (h : s.inv = true) : (cpuReset s).inv = true := by
  rw [cpuReset_eq, State.inv_setCpu]
  exact h

/-! One dot of the PPU. -/

theorem Ppu.evaluateSprites_inv {p : Ppu} (h : p.inv = true) (c : Cart) : (p.evaluateSprites c).inv = true := by
  rw [Ppu.inv_iff] at h ⊢
  obtain ⟨h1, h2, h3, h4, h5, h6, h7, h8⟩ := h
  refine ⟨h1, h2, h3, h4, h5, h6, ?_, ?_⟩
  · simp [Ppu.evaluateSprites]
  · simp only [Ppu.evaluateSprites, List.length_append, List.length_map, List.length_drop, List.length_take, h8]
    omega

theorem Ppu.clearSprites_inv {p : Ppu} (h : p.inv = true) : p.clearSprites.inv = true := by
  have h' := Ppu.inv_iff.mp h
  rw [Ppu.inv_iff]
  obtain ⟨h1, h2, h3, h4, h5, h6, -, h8⟩ := h'
  exact ⟨h1, h2, h3, h4, h5, h6, Nat.zero_le 8, h8⟩

theorem Ppu.bgFetchDot_inv {p : Ppu} (h : p.inv = true) (c : Cart) : (p.bgFetchDot c).inv = true := by
  unfold Ppu.bgFetchDot
  simp only
  split <;> exact h

theorem Ppu.bgScrollDot_inv {p : Ppu} (h : p.inv = true) : p.bgScrollDot.inv = true := by
  unfold Ppu.bgScrollDot
  repeat' split
  all_goals exact h

theorem Ppu.renderDot_inv {p : Ppu} (h : p.inv = true) (c : Cart) : (p.renderDot c).inv = true := by
  unfold Ppu.renderDot
  split
  · have hb : (p.backgroundDot c).inv = true := by
      unfold Ppu.backgroundDot
      simp only
      split
      · exact Ppu.bgScrollDot_inv (Ppu.bgFetchDot_inv h c)
      · exact Ppu.bgScrollDot_inv h
    unfold Ppu.spriteDot
    split
    · simp only
      split
      · exact Ppu.clearSprites_inv (p := { p.backgroundDot c with oamAddr := 0x00 }) hb
      · exact Ppu.evaluateSprites_inv (p := { p.backgroundDot c with oamAddr := 0x00 }) hb c
    · exact hb
  · split
    · exact Ppu.clearSprites_inv h
    · exact h

theorem Ppu.pixelDot_inv {p : Ppu} (h : p.inv = true) (c : Cart) : (p.pixelDot c).inv = true := by
  unfold Ppu.pixelDot
  split
  · next hx =>
    have h' := Ppu.inv_iff.mp h
    rw [Ppu.inv_iff]
    refine ⟨h'.1, h'.2.1, h'.2.2.1, Memory.ok_write h'.2.2.2.1 ?_ _, h'.2.2.2.2⟩
    omega
  · exact h

theorem Ppu.advance_inv {p : Ppu} (h : p.inv = true) : p.advance.1.inv = true := by
  rw [Ppu.inv_iff] at h
  obtain ⟨h1, h2, h3, h4, h5, h6, h7, h8⟩ := h
  unfold Ppu.advance
  repeat' split
  all_goals rw [Ppu.inv_iff]
  all_goals exact ⟨h1, h2, h3, h4, by dsimp only; omega, by dsimp only; omega, h7, h8⟩

/-- One dot keeps the PPU's invariant. -/
theorem Ppu.step_inv {p : Ppu} (h : p.inv = true) (c : Cart) : (p.step c).1.inv = true := by
  have hd : (p.dotActions c).inv = true := by
    have := Ppu.pixelDot_inv (Ppu.renderDot_inv h c) c
    unfold Ppu.dotActions Ppu.vblankDot
    repeat' split
    all_goals exact this
  exact Ppu.advance_inv hd

end Sys2Proof.Machine
end

