-- ==== Sys2Proof/Laws/PerInstr.lean ====
section
/-! SUPPORT. Statements about every instruction as syntax, one lemma per constructor. Family EncodedLength: the encoding
has the length that the addressing mode fixes (spec/30_encoding.md R150, R153), so that well-formedness is the
admission of the opcode alone. -/

namespace Sys2Proof.Laws

/-- The encoding of an instruction is as long as its mode says. -/
def EncodedLength.Statement (i : Instr) : Prop := (encode i).length = i.operand.mode.length

theorem EncodedLength.brk : EncodedLength.Statement .brk := rfl
theorem EncodedLength.oraIzX (p : Byte) : EncodedLength.Statement (.oraIzX p) := rfl
theorem EncodedLength.jam (op : Byte) : EncodedLength.Statement (.jam op) := rfl
theorem EncodedLength.sloIzX (p : Byte) : EncodedLength.Statement (.sloIzX p) := rfl
theorem EncodedLength.nopZp (op : Byte) (a : Byte) : EncodedLength.Statement (.nopZp op a) := rfl
theorem EncodedLength.oraZp (a : Byte) : EncodedLength.Statement (.oraZp a) := rfl
theorem EncodedLength.aslZp (a : Byte) : EncodedLength.Statement (.aslZp a) := rfl
theorem EncodedLength.sloZp (a : Byte) : EncodedLength.Statement (.sloZp a) := rfl
theorem EncodedLength.php : EncodedLength.Statement .php := rfl
theorem EncodedLength.oraImm (m : Byte) : EncodedLength.Statement (.oraImm m) := rfl
theorem EncodedLength.aslAcc : EncodedLength.Statement .aslAcc := rfl
theorem EncodedLength.ancImm (op : Byte) (m : Byte) : EncodedLength.Statement (.ancImm op m) := rfl
theorem EncodedLength.nopAbs (a : Word) : EncodedLength.Statement (.nopAbs a) := rfl
theorem EncodedLength.oraAbs (a : Word) : EncodedLength.Statement (.oraAbs a) := rfl
theorem EncodedLength.aslAbs (a : Word) : EncodedLength.Statement (.aslAbs a) := rfl
theorem EncodedLength.sloAbs (a : Word) : EncodedLength.Statement (.sloAbs a) := rfl
theorem EncodedLength.bpl (d : Byte) : EncodedLength.Statement (.bpl d) := rfl
theorem EncodedLength.oraIzY (p : Byte) : EncodedLength.Statement (.oraIzY p) := rfl
theorem EncodedLength.sloIzY (p : Byte) : EncodedLength.Statement (.sloIzY p) := rfl
theorem EncodedLength.nopZpX (op : Byte) (a : Byte) : EncodedLength.Statement (.nopZpX op a) := rfl
theorem EncodedLength.oraZpX (a : Byte) : EncodedLength.Statement (.oraZpX a) := rfl
theorem EncodedLength.aslZpX (a : Byte) : EncodedLength.Statement (.aslZpX a) := rfl
theorem EncodedLength.sloZpX (a : Byte) : EncodedLength.Statement (.sloZpX a) := rfl
theorem EncodedLength.clc : EncodedLength.Statement .clc := rfl
theorem EncodedLength.oraAbsY (a : Word) : EncodedLength.Statement (.oraAbsY a) := rfl
theorem EncodedLength.nopImp (op : Byte) : EncodedLength.Statement (.nopImp op) := rfl
theorem EncodedLength.sloAbsY (a : Word) : EncodedLength.Statement (.sloAbsY a) := rfl
theorem EncodedLength.nopAbsX (op : Byte) (a : Word) : EncodedLength.Statement (.nopAbsX op a) := rfl
theorem EncodedLength.oraAbsX (a : Word) : EncodedLength.Statement (.oraAbsX a) := rfl
theorem EncodedLength.aslAbsX (a : Word) : EncodedLength.Statement (.aslAbsX a) := rfl
theorem EncodedLength.sloAbsX (a : Word) : EncodedLength.Statement (.sloAbsX a) := rfl
theorem EncodedLength.jsrAbs (a : Word) : EncodedLength.Statement (.jsrAbs a) := rfl
theorem EncodedLength.andIzX (p : Byte) : EncodedLength.Statement (.andIzX p) := rfl
theorem EncodedLength.rlaIzX (p : Byte) : EncodedLength.Statement (.rlaIzX p) := rfl
theorem EncodedLength.bitZp (a : Byte) : EncodedLength.Statement (.bitZp a) := rfl
theorem EncodedLength.andZp (a : Byte) : EncodedLength.Statement (.andZp a) := rfl
theorem EncodedLength.rolZp (a : Byte) : EncodedLength.Statement (.rolZp a) := rfl
theorem EncodedLength.rlaZp (a : Byte) : EncodedLength.Statement (.rlaZp a) := rfl
theorem EncodedLength.plp : EncodedLength.Statement .plp := rfl
theorem EncodedLength.andImm (m : Byte) : EncodedLength.Statement (.andImm m) := rfl
theorem EncodedLength.rolAcc : EncodedLength.Statement .rolAcc := rfl
theorem EncodedLength.bitAbs (a : Word) : EncodedLength.Statement (.bitAbs a) := rfl
theorem EncodedLength.andAbs (a : Word) : EncodedLength.Statement (.andAbs a) := rfl
theorem EncodedLength.rolAbs (a : Word) : EncodedLength.Statement (.rolAbs a) := rfl
theorem EncodedLength.rlaAbs (a : Word) : EncodedLength.Statement (.rlaAbs a) := rfl
theorem EncodedLength.bmi (d : Byte) : EncodedLength.Statement (.bmi d) := rfl
theorem EncodedLength.andIzY (p : Byte) : EncodedLength.Statement (.andIzY p) := rfl
theorem EncodedLength.rlaIzY (p : Byte) : EncodedLength.Statement (.rlaIzY p) := rfl
theorem EncodedLength.andZpX (a : Byte) : EncodedLength.Statement (.andZpX a) := rfl
theorem EncodedLength.rolZpX (a : Byte) : EncodedLength.Statement (.rolZpX a) := rfl
theorem EncodedLength.rlaZpX (a : Byte) : EncodedLength.Statement (.rlaZpX a) := rfl
theorem EncodedLength.sec : EncodedLength.Statement .sec := rfl
theorem EncodedLength.andAbsY (a : Word) : EncodedLength.Statement (.andAbsY a) := rfl
theorem EncodedLength.rlaAbsY (a : Word) : EncodedLength.Statement (.rlaAbsY a) := rfl
theorem EncodedLength.andAbsX (a : Word) : EncodedLength.Statement (.andAbsX a) := rfl
theorem EncodedLength.rolAbsX (a : Word) : EncodedLength.Statement (.rolAbsX a) := rfl
theorem EncodedLength.rlaAbsX (a : Word) : EncodedLength.Statement (.rlaAbsX a) := rfl
theorem EncodedLength.rti : EncodedLength.Statement .rti := rfl
theorem EncodedLength.eorIzX (p : Byte) : EncodedLength.Statement (.eorIzX p) := rfl
theorem EncodedLength.sreIzX (p : Byte) : EncodedLength.Statement (.sreIzX p) := rfl
theorem EncodedLength.eorZp (a : Byte) : EncodedLength.Statement (.eorZp a) := rfl
theorem EncodedLength.lsrZp (a : Byte) : EncodedLength.Statement (.lsrZp a) := rfl
theorem EncodedLength.sreZp (a : Byte) : EncodedLength.Statement (.sreZp a) := rfl
theorem EncodedLength.pha : EncodedLength.Statement .pha := rfl
theorem EncodedLength.eorImm (m : Byte) : EncodedLength.Statement (.eorImm m) := rfl
theorem EncodedLength.lsrAcc : EncodedLength.Statement .lsrAcc := rfl
theorem EncodedLength.alrImm (m : Byte) : EncodedLength.Statement (.alrImm m) := rfl
theorem EncodedLength.jmpAbs (a : Word) : EncodedLength.Statement (.jmpAbs a) := rfl
theorem EncodedLength.eorAbs (a : Word) : EncodedLength.Statement (.eorAbs a) := rfl
theorem EncodedLength.lsrAbs (a : Word) : EncodedLength.Statement (.lsrAbs a) := rfl
theorem EncodedLength.sreAbs (a : Word) : EncodedLength.Statement (.sreAbs a) := rfl
theorem EncodedLength.bvc (d : Byte) : EncodedLength.Statement (.bvc d) := rfl
theorem EncodedLength.eorIzY (p : Byte) : EncodedLength.Statement (.eorIzY p) := rfl
theorem EncodedLength.sreIzY (p : Byte) : EncodedLength.Statement (.sreIzY p) := rfl
theorem EncodedLength.eorZpX (a : Byte) : EncodedLength.Statement (.eorZpX a) := rfl
theorem EncodedLength.lsrZpX (a : Byte) : EncodedLength.Statement (.lsrZpX a) := rfl
theorem EncodedLength.sreZpX (a : Byte) : EncodedLength.Statement (.sreZpX a) := rfl
theorem EncodedLength.cli : EncodedLength.Statement .cli := rfl
theorem EncodedLength.eorAbsY (a : Word) : EncodedLength.Statement (.eorAbsY a) := rfl
theorem EncodedLength.sreAbsY (a : Word) : EncodedLength.Statement (.sreAbsY a) := rfl
theorem EncodedLength.eorAbsX (a : Word) : EncodedLength.Statement (.eorAbsX a) := rfl
theorem EncodedLength.lsrAbsX (a : Word) : EncodedLength.Statement (.lsrAbsX a) := rfl
theorem EncodedLength.sreAbsX (a : Word) : EncodedLength.Statement (.sreAbsX a) := rfl
theorem EncodedLength.rts : EncodedLength.Statement .rts := rfl
theorem EncodedLength.adcIzX (p : Byte) : EncodedLength.Statement (.adcIzX p) := rfl
theorem EncodedLength.rraIzX (p : Byte) : EncodedLength.Statement (.rraIzX p) := rfl
theorem EncodedLength.adcZp (a : Byte) : EncodedLength.Statement (.adcZp a) := rfl
theorem EncodedLength.rorZp (a : Byte) : EncodedLength.Statement (.rorZp a) := rfl
theorem EncodedLength.rraZp (a : Byte) : EncodedLength.Statement (.rraZp a) := rfl
theorem EncodedLength.pla : EncodedLength.Statement .pla := rfl
theorem EncodedLength.adcImm (m : Byte) : EncodedLength.Statement (.adcImm m) := rfl
theorem EncodedLength.rorAcc : EncodedLength.Statement .rorAcc := rfl
theorem EncodedLength.arrImm (m : Byte) : EncodedLength.Statement (.arrImm m) := rfl
theorem EncodedLength.jmpInd (p : Word) : EncodedLength.Statement (.jmpInd p) := rfl
theorem EncodedLength.adcAbs (a : Word) : EncodedLength.Statement (.adcAbs a) := rfl
theorem EncodedLength.rorAbs (a : Word) : EncodedLength.Statement (.rorAbs a) := rfl
theorem EncodedLength.rraAbs (a : Word) : EncodedLength.Statement (.rraAbs a) := rfl
theorem EncodedLength.bvs (d : Byte) : EncodedLength.Statement (.bvs d) := rfl
theorem EncodedLength.adcIzY (p : Byte) : EncodedLength.Statement (.adcIzY p) := rfl
theorem EncodedLength.rraIzY (p : Byte) : EncodedLength.Statement (.rraIzY p) := rfl
theorem EncodedLength.adcZpX (a : Byte) : EncodedLength.Statement (.adcZpX a) := rfl
theorem EncodedLength.rorZpX (a : Byte) : EncodedLength.Statement (.rorZpX a) := rfl
theorem EncodedLength.rraZpX (a : Byte) : EncodedLength.Statement (.rraZpX a) := rfl
theorem EncodedLength.sei : EncodedLength.Statement .sei := rfl
theorem EncodedLength.adcAbsY (a : Word) : EncodedLength.Statement (.adcAbsY a) := rfl
theorem EncodedLength.rraAbsY (a : Word) : EncodedLength.Statement (.rraAbsY a) := rfl
theorem EncodedLength.adcAbsX (a : Word) : EncodedLength.Statement (.adcAbsX a) := rfl
theorem EncodedLength.rorAbsX (a : Word) : EncodedLength.Statement (.rorAbsX a) := rfl
theorem EncodedLength.rraAbsX (a : Word) : EncodedLength.Statement (.rraAbsX a) := rfl
theorem EncodedLength.nopImm (op : Byte) (m : Byte) : EncodedLength.Statement (.nopImm op m) := rfl
theorem EncodedLength.staIzX (p : Byte) : EncodedLength.Statement (.staIzX p) := rfl
theorem EncodedLength.saxIzX (p : Byte) : EncodedLength.Statement (.saxIzX p) := rfl
theorem EncodedLength.styZp (a : Byte) : EncodedLength.Statement (.styZp a) := rfl
theorem EncodedLength.staZp (a : Byte) : EncodedLength.Statement (.staZp a) := rfl
theorem EncodedLength.stxZp (a : Byte) : EncodedLength.Statement (.stxZp a) := rfl
theorem EncodedLength.saxZp (a : Byte) : EncodedLength.Statement (.saxZp a) := rfl
theorem EncodedLength.dey : EncodedLength.Statement .dey := rfl
theorem EncodedLength.txa : EncodedLength.Statement .txa := rfl
theorem EncodedLength.aneImm (m : Byte) : EncodedLength.Statement (.aneImm m) := rfl
theorem EncodedLength.styAbs (a : Word) : EncodedLength.Statement (.styAbs a) := rfl
theorem EncodedLength.staAbs (a : Word) : EncodedLength.Statement (.staAbs a) := rfl
theorem EncodedLength.stxAbs (a : Word) : EncodedLength.Statement (.stxAbs a) := rfl
theorem EncodedLength.saxAbs (a : Word) : EncodedLength.Statement (.saxAbs a) := rfl
theorem EncodedLength.bcc (d : Byte) : EncodedLength.Statement (.bcc d) := rfl
theorem EncodedLength.staIzY (p : Byte) : EncodedLength.Statement (.staIzY p) := rfl
theorem EncodedLength.shaIzY (p : Byte) : EncodedLength.Statement (.shaIzY p) := rfl
theorem EncodedLength.styZpX (a : Byte) : EncodedLength.Statement (.styZpX a) := rfl
theorem EncodedLength.staZpX (a : Byte) : EncodedLength.Statement (.staZpX a) := rfl
theorem EncodedLength.stxZpY (a : Byte) : EncodedLength.Statement (.stxZpY a) := rfl
theorem EncodedLength.saxZpY (a : Byte) : EncodedLength.Statement (.saxZpY a) := rfl
theorem EncodedLength.tya : EncodedLength.Statement .tya := rfl
theorem EncodedLength.staAbsY (a : Word) : EncodedLength.Statement (.staAbsY a) := rfl
theorem EncodedLength.txs : EncodedLength.Statement .txs := rfl
theorem EncodedLength.tasAbsY (a : Word) : EncodedLength.Statement (.tasAbsY a) := rfl
theorem EncodedLength.shyAbsX (a : Word) : EncodedLength.Statement (.shyAbsX a) := rfl
theorem EncodedLength.staAbsX (a : Word) : EncodedLength.Statement (.staAbsX a) := rfl
theorem EncodedLength.shxAbsY (a : Word) : EncodedLength.Statement (.shxAbsY a) := rfl
theorem EncodedLength.shaAbsY (a : Word) : EncodedLength.Statement (.shaAbsY a) := rfl
theorem EncodedLength.ldyImm (m : Byte) : EncodedLength.Statement (.ldyImm m) := rfl
theorem EncodedLength.ldaIzX (p : Byte) : EncodedLength.Statement (.ldaIzX p) := rfl
theorem EncodedLength.ldxImm (m : Byte) : EncodedLength.Statement (.ldxImm m) := rfl
theorem EncodedLength.laxIzX (p : Byte) : EncodedLength.Statement (.laxIzX p) := rfl
theorem EncodedLength.ldyZp (a : Byte) : EncodedLength.Statement (.ldyZp a) := rfl
theorem EncodedLength.ldaZp (a : Byte) : EncodedLength.Statement (.ldaZp a) := rfl
theorem EncodedLength.ldxZp (a : Byte) : EncodedLength.Statement (.ldxZp a) := rfl
theorem EncodedLength.laxZp (a : Byte) : EncodedLength.Statement (.laxZp a) := rfl
theorem EncodedLength.tay : EncodedLength.Statement .tay := rfl
theorem EncodedLength.ldaImm (m : Byte) : EncodedLength.Statement (.ldaImm m) := rfl
theorem EncodedLength.tax : EncodedLength.Statement .tax := rfl
theorem EncodedLength.lxaImm (m : Byte) : EncodedLength.Statement (.lxaImm m) := rfl
theorem EncodedLength.ldyAbs (a : Word) : EncodedLength.Statement (.ldyAbs a) := rfl
theorem EncodedLength.ldaAbs (a : Word) : EncodedLength.Statement (.ldaAbs a) := rfl
theorem EncodedLength.ldxAbs (a : Word) : EncodedLength.Statement (.ldxAbs a) := rfl
theorem EncodedLength.laxAbs (a : Word) : EncodedLength.Statement (.laxAbs a) := rfl
theorem EncodedLength.bcs (d : Byte) : EncodedLength.Statement (.bcs d) := rfl
theorem EncodedLength.ldaIzY (p : Byte) : EncodedLength.Statement (.ldaIzY p) := rfl
theorem EncodedLength.laxIzY (p : Byte) : EncodedLength.Statement (.laxIzY p) := rfl
theorem EncodedLength.ldyZpX (a : Byte) : EncodedLength.Statement (.ldyZpX a) := rfl
theorem EncodedLength.ldaZpX (a : Byte) : EncodedLength.Statement (.ldaZpX a) := rfl
theorem EncodedLength.ldxZpY (a : Byte) : EncodedLength.Statement (.ldxZpY a) := rfl
theorem EncodedLength.laxZpY (a : Byte) : EncodedLength.Statement (.laxZpY a) := rfl
theorem EncodedLength.clv : EncodedLength.Statement .clv := rfl
theorem EncodedLength.ldaAbsY (a : Word) : EncodedLength.Statement (.ldaAbsY a) := rfl
theorem EncodedLength.tsx : EncodedLength.Statement .tsx := rfl
theorem EncodedLength.lasAbsY (a : Word) : EncodedLength.Statement (.lasAbsY a) := rfl
theorem EncodedLength.ldyAbsX (a : Word) : EncodedLength.Statement (.ldyAbsX a) := rfl
theorem EncodedLength.ldaAbsX (a : Word) : EncodedLength.Statement (.ldaAbsX a) := rfl
theorem EncodedLength.ldxAbsY (a : Word) : EncodedLength.Statement (.ldxAbsY a) := rfl
theorem EncodedLength.laxAbsY (a : Word) : EncodedLength.Statement (.laxAbsY a) := rfl
theorem EncodedLength.cpyImm (m : Byte) : EncodedLength.Statement (.cpyImm m) := rfl
theorem EncodedLength.cmpIzX (p : Byte) : EncodedLength.Statement (.cmpIzX p) := rfl
theorem EncodedLength.dcpIzX (p : Byte) : EncodedLength.Statement (.dcpIzX p) := rfl
theorem EncodedLength.cpyZp (a : Byte) : EncodedLength.Statement (.cpyZp a) := rfl
theorem EncodedLength.cmpZp (a : Byte) : EncodedLength.Statement (.cmpZp a) := rfl
theorem EncodedLength.decZp (a : Byte) : EncodedLength.Statement (.decZp a) := rfl
theorem EncodedLength.dcpZp (a : Byte) : EncodedLength.Statement (.dcpZp a) := rfl
theorem EncodedLength.iny : EncodedLength.Statement .iny := rfl
theorem EncodedLength.cmpImm (m : Byte) : EncodedLength.Statement (.cmpImm m) := rfl
theorem EncodedLength.dex : EncodedLength.Statement .dex := rfl
theorem EncodedLength.sbxImm (m : Byte) : EncodedLength.Statement (.sbxImm m) := rfl
theorem EncodedLength.cpyAbs (a : Word) : EncodedLength.Statement (.cpyAbs a) := rfl
theorem EncodedLength.cmpAbs (a : Word) : EncodedLength.Statement (.cmpAbs a) := rfl
theorem EncodedLength.decAbs (a : Word) : EncodedLength.Statement (.decAbs a) := rfl
theorem EncodedLength.dcpAbs (a : Word) : EncodedLength.Statement (.dcpAbs a) := rfl
theorem EncodedLength.bne (d : Byte) : EncodedLength.Statement (.bne d) := rfl
theorem EncodedLength.cmpIzY (p : Byte) : EncodedLength.Statement (.cmpIzY p) := rfl
theorem EncodedLength.dcpIzY (p : Byte) : EncodedLength.Statement (.dcpIzY p) := rfl
theorem EncodedLength.cmpZpX (a : Byte) : EncodedLength.Statement (.cmpZpX a) := rfl
theorem EncodedLength.decZpX (a : Byte) : EncodedLength.Statement (.decZpX a) := rfl
theorem EncodedLength.dcpZpX (a : Byte) : EncodedLength.Statement (.dcpZpX a) := rfl
theorem EncodedLength.cld : EncodedLength.Statement .cld := rfl
theorem EncodedLength.cmpAbsY (a : Word) : EncodedLength.Statement (.cmpAbsY a) := rfl
theorem EncodedLength.dcpAbsY (a : Word) : EncodedLength.Statement (.dcpAbsY a) := rfl
theorem EncodedLength.cmpAbsX (a : Word) : EncodedLength.Statement (.cmpAbsX a) := rfl
theorem EncodedLength.decAbsX (a : Word) : EncodedLength.Statement (.decAbsX a) := rfl
theorem EncodedLength.dcpAbsX (a : Word) : EncodedLength.Statement (.dcpAbsX a) := rfl
theorem EncodedLength.cpxImm (m : Byte) : EncodedLength.Statement (.cpxImm m) := rfl
theorem EncodedLength.sbcIzX (p : Byte) : EncodedLength.Statement (.sbcIzX p) := rfl
theorem EncodedLength.iscIzX (p : Byte) : EncodedLength.Statement (.iscIzX p) := rfl
theorem EncodedLength.cpxZp (a : Byte) : EncodedLength.Statement (.cpxZp a) := rfl
theorem EncodedLength.sbcZp (a : Byte) : EncodedLength.Statement (.sbcZp a) := rfl
theorem EncodedLength.incZp (a : Byte) : EncodedLength.Statement (.incZp a) := rfl
theorem EncodedLength.iscZp (a : Byte) : EncodedLength.Statement (.iscZp a) := rfl
theorem EncodedLength.inx : EncodedLength.Statement .inx := rfl
theorem EncodedLength.sbcImm (m : Byte) : EncodedLength.Statement (.sbcImm m) := rfl
theorem EncodedLength.nop : EncodedLength.Statement .nop := rfl
theorem EncodedLength.sbcImmEB (m : Byte) : EncodedLength.Statement (.sbcImmEB m) := rfl
theorem EncodedLength.cpxAbs (a : Word) : EncodedLength.Statement (.cpxAbs a) := rfl
theorem EncodedLength.sbcAbs (a : Word) : EncodedLength.Statement (.sbcAbs a) := rfl
theorem EncodedLength.incAbs (a : Word) : EncodedLength.Statement (.incAbs a) := rfl
theorem EncodedLength.iscAbs (a : Word) : EncodedLength.Statement (.iscAbs a) := rfl
theorem EncodedLength.beq (d : Byte) : EncodedLength.Statement (.beq d) := rfl
theorem EncodedLength.sbcIzY (p : Byte) : EncodedLength.Statement (.sbcIzY p) := rfl
theorem EncodedLength.iscIzY (p : Byte) : EncodedLength.Statement (.iscIzY p) := rfl
theorem EncodedLength.sbcZpX (a : Byte) : EncodedLength.Statement (.sbcZpX a) := rfl
theorem EncodedLength.incZpX (a : Byte) : EncodedLength.Statement (.incZpX a) := rfl
theorem EncodedLength.iscZpX (a : Byte) : EncodedLength.Statement (.iscZpX a) := rfl
theorem EncodedLength.sed : EncodedLength.Statement .sed := rfl
theorem EncodedLength.sbcAbsY (a : Word) : EncodedLength.Statement (.sbcAbsY a) := rfl
theorem EncodedLength.iscAbsY (a : Word) : EncodedLength.Statement (.iscAbsY a) := rfl
theorem EncodedLength.sbcAbsX (a : Word) : EncodedLength.Statement (.sbcAbsX a) := rfl
theorem EncodedLength.incAbsX (a : Word) : EncodedLength.Statement (.incAbsX a) := rfl
theorem EncodedLength.iscAbsX (a : Word) : EncodedLength.Statement (.iscAbsX a) := rfl

end Sys2Proof.Laws
end

