-- ==== Sys2Proof/Laws/Sync.lean ====
section
/-! SUPPORT. What the Synchronizer and one step can do, said once: what a drain pays and leaves alone, what an action
owes, and the four ways a step can end. -/

namespace Sys2Proof.Machine

/-! The drain. -/

/-- THE INDUCTION over a drain: what one PPU dot keeps, a drain keeps. -/
theorem drainLoop_keeps {P : State → Prop} (hd : ∀ u : State, P u → P (ppuDot u).1) (n : Nat) {s : State} (h : P s) :
    P (drainLoop n s).1 := by
  induction n generalizing s with
  | zero => exact h
  | succ n ih =>
    unfold drainLoop
    simp only
    split
    · exact hd s h
    · exact ih (hd s h)

/-- A drain touches the PPU and the Synchronizer only. -/
theorem drain_kept (s : State) : ∃ (p : Ppu) (y : Sync), (drain s).1 = { s with ppu := p, sync := y } :=
  drainLoop_keeps (P := fun u => ∃ (p : Ppu) (y : Sync), u = { s with ppu := p, sync := y })
    (fun _ ⟨_, _, hu⟩ => hu ▸ ⟨_, _, rfl⟩) _ ⟨s.ppu, s.sync, rfl⟩

/-- What a drain of `n` owed dots pays: each step turns one owed dot into one stepped dot, and without frame-ready
nothing is left. -/
theorem drainLoop_pays (n : Nat) {s : State} (h : n = s.sync.debt) :
    (drainLoop n s).1.sync.dots + (drainLoop n s).1.sync.debt = s.sync.dots + s.sync.debt ∧
      ((drainLoop n s).2 = false → (drainLoop n s).1.sync.debt = 0) ∧
      ((drainLoop n s).2 = true → (drainLoop n s).1.sync.debt + 1 ≤ s.sync.debt) ∧
      (drainLoop n s).1.sync.reported = s.sync.reported ∧
      (drainLoop n s).1.sync.inFrame = s.sync.inFrame := by
  induction n generalizing s with
  | zero => exact ⟨rfl, fun _ => h.symm, fun hf => (by cases hf), rfl, rfl⟩
  | succ n ih =>
    have hdots : (ppuDot s).1.sync.dots = s.sync.dots + 1 := rfl
    have hdebt : (ppuDot s).1.sync.debt = s.sync.debt - 1 := rfl
    have hrep : (ppuDot s).1.sync.reported = s.sync.reported := rfl
    have hin : (ppuDot s).1.sync.inFrame = s.sync.inFrame := rfl
    unfold drainLoop
    simp only
    split
    · next hr =>
      dsimp only
      exact ⟨by omega, fun hf => (by cases hf), fun _ => by omega, hrep, hin⟩
    · obtain ⟨h1, h2, h3, h4, h5⟩ := ih (s := (ppuDot s).1) (by omega)
      exact ⟨by omega, h2, fun hr => by have := h3 hr; omega, h4.trans hrep, h5.trans hin⟩

theorem drain_pays (s : State) :
    (drain s).1.sync.dots + (drain s).1.sync.debt = s.sync.dots + s.sync.debt ∧
      ((drain s).2 = false → (drain s).1.sync.debt = 0) ∧
      ((drain s).2 = true → (drain s).1.sync.debt + 1 ≤ s.sync.debt) ∧
      (drain s).1.sync.reported = s.sync.reported ∧ (drain s).1.sync.inFrame = s.sync.inFrame :=
  drainLoop_pays _ rfl

/-- Without owed dots a drain does nothing. -/
theorem drain_nothing {s : State} (h : s.sync.debt = 0) : drain s = (s, false) := by
  unfold drain
  rw [h]
  rfl

/-- The loop of R632 with dots owed: one PPU step, then the result if it raised frame-ready, else the rest. -/
theorem drain_owed {s : State} (h : 0 < s.sync.debt) :
    drain s = if (ppuDot s).2 then ((ppuDot s).1, true) else drain (ppuDot s).1 := by
  obtain ⟨n, hn⟩ : ∃ n, s.sync.debt = n + 1 := ⟨s.sync.debt - 1, by omega⟩
  have hd : (ppuDot s).1.sync.debt = n := by change s.sync.debt - 1 = n; omega
  rw [drain, hn, drainLoop, drain, hd]

theorem ppuDot_inv {s : State} (h : s.inv = true) : (ppuDot s).1.inv = true := by
  have h' := State.inv_iff.mp h
  rw [State.inv_iff]
  exact ⟨h'.1, Ppu.step_inv h'.2.1 _, h'.2.2⟩

theorem drain_inv {s : State} (h : s.inv = true) : (drain s).1.inv = true :=
  drainLoop_keeps (P := fun u => u.inv = true) (fun _ hu => ppuDot_inv hu) _ h

/-! The CPU action and the rest of the iteration. -/

/-- The CPU action never stops, and it is a sequence of accesses after the pending NMI is consumed. -/
theorem cpuAction_next (s : State) :
    ∃ (t : State) (y : Sync), cpuAction s = .next t ∧ Accesses { s with sync := y } t ∧ y.debt = s.sync.debt ∧
      y.dots = s.sync.dots ∧ y.reported = s.sync.reported ∧ y.inFrame = s.sync.inFrame := by
  unfold cpuAction
  split
  · exact ⟨_, { s.sync with nmiPending := false }, rfl, nmi_accesses _, rfl, rfl, rfl, rfl⟩
  · split
    · exact ⟨_, s.sync, rfl, irq_accesses _, rfl, rfl, rfl, rfl⟩
    · unfold cpuStep
      split
      · exact ⟨_, s.sync, rfl, Accesses.done.charge 1, rfl, rfl, rfl, rfl⟩
      · obtain ⟨j, hj, -, -, he⟩ := exec_admitted (fetchInstr s).1
        refine ⟨_, s.sync, (he _).trans (exec_eq j hj _), ?_, rfl, rfl, rfl, rfl⟩
        exact (fetchInstr_accesses s).trans (semantics_accesses _ _ _ _)

/-- Accesses leave the Synchronizer alone (60_exceptions.md R677). -/
theorem Accesses.sync {s t : State} (h : Accesses s t) : t.sync = s.sync :=
  h.keeps (P := fun u => u.sync = s.sync) rfl (fun u a hu => (cpuRead_sync a u).trans hu)
    (fun u a v hu => (cpuWrite_sync a v u).trans hu) fun _ _ _ hu => hu

/-- THE FOUR WAYS A STEP ENDS: a machine reset; a frame left over from before handed over; a CPU action whose dots
complete no frame; one whose dots complete a frame, which is handed over. -/
theorem step_cases {s t : State} (h : step s = .next t) :
    (takesReset s = true ∧ t = machineReset s) ∨
    (takesReset s = false ∧ (drain s).2 = true ∧ t = present (drain s).1) ∨
    (takesReset s = false ∧ (drain s).2 = false ∧ ∃ u : State, cpuAction (drain s).1 = .next u ∧
      (drain (owe (drain s).1 u)).2 = false ∧ t = (drain (owe (drain s).1 u)).1) ∨
    (takesReset s = false ∧ (drain s).2 = false ∧ ∃ u : State, cpuAction (drain s).1 = .next u ∧
      (drain (owe (drain s).1 u)).2 = true ∧ t = present (drain (owe (drain s).1 u)).1) := by
  unfold step at h
  split at h
  · next hr => cases h; exact .inl ⟨hr, rfl⟩
  · next hr =>
    have hr : takesReset s = false := by simpa using hr
    simp only at h
    split at h
    · next hd => cases h; exact .inr (.inl ⟨hr, hd, rfl⟩)
    · next hd =>
      have hd : (drain s).2 = false := by simpa using hd
      split at h
      · next u hu =>
        cases h
        unfold afterAction finish
        cases hf : (drain (owe (drain s).1 u)).2
        · exact .inr (.inr (.inl ⟨hr, hd, u, hu, hf, by simp⟩))
        · exact .inr (.inr (.inr ⟨hr, hd, u, hu, hf, by simp⟩))
      · cases h
      · cases h

end Sys2Proof.Machine
end

