-- ==== Sys2Proof/Tests/Slice0.lean ====
section
/-! SUPPORT. Named tests: ill-formed terms each check refuses, words written out from the opcode list, single steps
from the vectors of spec/95_test_vectors.md (each test names its vector), and, for every statement with hypotheses, a
witness that meets them. -/

namespace Sys2Proof.Tests

/-! One theorem after another: more than a hundred kernel evaluations waiting at once would need a thread each. -/

set_option Elab.async false

open Sys2Proof Sys2Proof.Machine

/-! Helpers. -/

/-- Set RAM bytes. -/
def putRam (cells : List (Nat × Byte)) (s : State) : State :=
  { s with ram := cells.foldl (fun m cell => m.write cell.1 cell.2) s.ram }

/-- Set PRG ROM bytes at CPU addresses. -/
def putRom (cells : List (Word × Byte)) (s : State) : State :=
  cells.foldl (fun u cell => plantByte cell.1 cell.2 u) s

/-- The six flags N V D I Z C. -/
def flags (n v d i z c : Nat) : Status :=
  { n := n == 1, v := v == 1, d := d == 1, i := i == 1, z := z == 1, c := c == 1 }

/-- The power-on state with no cycle counted, the blank image and PC at 0x0400. -/
def start : State := { State.reset with cpu := { Cpu.powerOn with pc := 0x0400 } }

/-- `start` with A, X, Y and the flags given. -/
def cpuWith (a x y : Byte) (p : Status) : State :=
  { start with cpu := { start.cpu with a := a, x := x, y := y, p := p } }

/-- `s` with S given. -/
def spAt (sp : Byte) (s : State) : State := { s with cpu := { s.cpu with sp := sp } }

/-- `s` with PC given. -/
def pcAt (pc : Word) (s : State) : State := { s with cpu := { s.cpu with pc := pc } }

/-- Put an instruction's bytes at PC. -/
def place (bytes : List Byte) (s : State) : State :=
  (bytes.mapIdx fun k b => (s.cpu.pc + BitVec.ofNat 16 k, b)).foldl (fun u cell => plantByte cell.1 cell.2 u) s

/-- The state an answer gives. -/
def nextOf (o : Answer) : Option State :=
  match o with
  | .next t => some t
  | .fault _ => none
  | .refused _ => none

/-- One CPU step on an instruction placed at PC, and what `f` sees after it. -/
def after {α : Type} (bytes : List Byte) (s : State) (f : State → α) : Option α :=
  (nextOf (cpuStep (place bytes s))).map f

/-- Flags of a power-on state: only I is set. -/
def p0 : Status := flags 0 0 0 1 0 0

/-- Power-on flags with C set. -/
def pC : Status := flags 0 0 0 1 0 1

/-! Well-formedness: a term each check refuses. -/

theorem test_wf_jam_refuses_nop : (Instr.jam 0xEA).wellFormed = false ∧ (Instr.jam 0xF2).wellFormed = true := by decide

theorem test_wf_nop_refuses_other_modes :
    (Instr.nopImp 0xEA).wellFormed = false ∧ (Instr.nopImm 0xA9 0x00).wellFormed = false ∧
      (Instr.nopZp 0xA5 0x10).wellFormed = false ∧ (Instr.nopZpX 0x04 0x10).wellFormed = false ∧
      (Instr.nopAbsX 0x0C 0x1234).wellFormed = false := by decide

theorem test_wf_nop_admits :
    (Instr.nopImp 0xFA).wellFormed = true ∧ (Instr.nopImm 0x89 0x00).wellFormed = true ∧
      (Instr.nopZp 0x64 0x10).wellFormed = true ∧ (Instr.nopZpX 0xF4 0x10).wellFormed = true ∧
      (Instr.nopAbsX 0xFC 0x1234).wellFormed = true := by decide

theorem test_wf_anc : (Instr.ancImm 0x29 0x80).wellFormed = false ∧ (Instr.ancImm 0x2B 0x80).wellFormed = true := by
  decide

theorem test_wf_code_refuses_empty_short_long :
    codeWellFormed [] = false ∧ codeWellFormed [0xAD, 0x34] = false ∧ codeWellFormed [0xEA, 0x00] = false ∧
      codeWellFormed [0xA9, 0x42, 0x00] = false := by decide

theorem test_wf_code_admits :
    codeWellFormed [0xEA] = true ∧ codeWellFormed [0xA9, 0x42] = true ∧ codeWellFormed [0xAD, 0x34, 0x12] = true := by
  decide

/-! Words written out from spec/30_encoding.md R177, one or more per family. -/

theorem test_decode_load : decode [0xB6, 0xF0] = .ok (.ldxZpY 0xF0, []) := rfl

theorem test_decode_store_low_byte_first : decode [0x8D, 0x14, 0x40, 0xEA] = .ok (.staAbs 0x4014, [0xEA]) := rfl

theorem test_decode_transfer : decode [0x9A] = .ok (.txs, []) := rfl

theorem test_decode_stack : decode [0x28] = .ok (.plp, []) := rfl

theorem test_decode_arith : decode [0xF1, 0x20] = .ok (.sbcIzY 0x20, []) := rfl

theorem test_decode_logic : decode [0x41, 0xFE] = .ok (.eorIzX 0xFE, []) := rfl

theorem test_decode_shift : decode [0x6A] = .ok (.rorAcc, []) := rfl

theorem test_decode_control : decode [0x6C, 0xFF, 0x02] = .ok (.jmpInd 0x02FF, []) := rfl

theorem test_decode_branch : decode [0x90, 0x10] = .ok (.bcc 0x10, []) := rfl

theorem test_decode_flag : decode [0x58] = .ok (.cli, []) := rfl

theorem test_decode_unofficial : decode [0x97, 0x10] = .ok (.saxZpY 0x10, []) := rfl

theorem test_decode_shared_rows :
    decode [0x1C, 0xF0, 0x12] = .ok (.nopAbsX 0x1C 0x12F0, []) ∧ decode [0x2B, 0x80] = .ok (.ancImm 0x2B 0x80, []) :=
  ⟨rfl, rfl⟩

theorem test_decode_refuses_short :
    decode [] = .error .noOpcode ∧ decode [0xAD, 0x34] = .error (.operandMissing 0xAD) ∧
      decode [0xA9] = .error (.operandMissing 0xA9) := ⟨rfl, rfl, rfl⟩

/-- The table's numbering: the first byte is bits 7 to 0, the operand words above `nbits` are 0. -/
theorem test_decode_table_word :
    decodeTableWord 8 0x69 = some (.adcImm 0x00) ∧ decodeTableWord 24 0x1234AD = some (.ldaAbs 0x1234) := ⟨rfl, rfl⟩

/-! Single steps, by the vectors of spec/95_test_vectors.md section 2. -/

/-- L2. -/
theorem test_lda_negative :
    after [0xA9, 0x80] start (fun t => (t.cpu.a, t.cpu.p, t.cpu.cycles)) =
      some (0x80, flags 1 0 0 1 0 0, 2) := by decide +kernel

/-- L3. -/
theorem test_lda_page_cross_and_fold :
    after [0xBD, 0xF0, 0x12] (putRam [(0x310, 0x7E)] (cpuWith 0 0x20 0 p0))
      (fun t => (t.cpu.a, t.cpu.p, t.cpu.cycles)) =
      some (0x7E, p0, 5) := by decide +kernel

/-- L5. -/
theorem test_ldx_zero_page_y_wraps :
    after [0xB6, 0xF0] (putRam [(0x10, 0x05)] (cpuWith 0 0 0x20 p0)) (fun t => (t.cpu.x, t.cpu.cycles)) =
      some (0x05, 4) := by decide +kernel

/-- L6. -/
theorem test_lda_indirect_x_wraps :
    after [0xA1, 0xFE] (putRam [(0xFF, 0x34), (0x00, 0x02), (0x234, 0x99)] (cpuWith 0 0x01 0 p0))
      (fun t => (t.cpu.a, t.cpu.cycles)) =
      some (0x99, 6) := by decide +kernel

/-- L7. -/
theorem test_lda_indirect_y_crosses :
    after [0xB1, 0x20] (putRam [(0x20, 0xF8), (0x21, 0x02), (0x308, 0x00)] (cpuWith 1 0 0x10 p0))
      (fun t => (t.cpu.a, t.cpu.p, t.cpu.cycles)) =
      some (0x00, flags 0 0 0 1 1 0, 6) := by decide +kernel

/-- R203. -/
theorem test_ldy_negative :
    after [0xA0, 0xFF] start (fun t => (t.cpu.y, t.cpu.p)) =
      some (0xFF, flags 1 0 0 1 0 0) := by decide +kernel

/-- L8. -/
theorem test_sta_folds :
    after [0x8D, 0x00, 0x08] (cpuWith 0x42 0 0 p0) (fun t => (t.ram.read 0, t.cpu.p, t.cpu.cycles)) =
      some (0x42, p0, 4) := by decide +kernel

/-- L9. -/
theorem test_sta_no_page_penalty :
    after [0x9D, 0xF0, 0x12] (cpuWith 0x42 0x20 0 p0) (fun t => (t.ram.read 0x310, t.cpu.cycles)) =
      some (0x42, 5) := by decide +kernel

/-- R205. -/
theorem test_stx : after [0x86, 0x10] (cpuWith 0 0x07 0 p0) (fun t => t.ram.read 0x10) = some 0x07 := by
  decide +kernel

/-- R206. -/
theorem test_sty_zero_page_x_wraps :
    after [0x94, 0x02] (cpuWith 0 0xFF 0x01 p0) (fun t => t.ram.read 0x01) =
      some 0x01 := by decide +kernel

/-- L10. -/
theorem test_txs_no_flag : after [0x9A] start (fun t => (t.cpu.sp, t.cpu.p)) = some (0x00, p0) := by
  decide +kernel

/-- L11. -/
theorem test_tsx :
    after [0xBA] start (fun t => (t.cpu.x, t.cpu.p)) =
      some (0xFD, flags 1 0 0 1 0 0) := by decide +kernel

/-- L12. -/
theorem test_tya :
    after [0x98] (cpuWith 0 0 0x80 p0) (fun t => (t.cpu.a, t.cpu.p)) =
      some (0x80, flags 1 0 0 1 0 0) := by decide +kernel

/-- L13. -/
theorem test_tax :
    after [0xAA] (cpuWith 0 0x55 0 p0) (fun t => (t.cpu.x, t.cpu.p)) =
      some (0x00, flags 0 0 0 1 1 0) := by decide +kernel

/-- R208. -/
theorem test_tay :
    after [0xA8] (cpuWith 0x90 0 0 p0) (fun t => (t.cpu.y, t.cpu.p.n)) =
      some (0x90, true) := by decide +kernel

/-- R209. -/
theorem test_txa :
    after [0x8A] (cpuWith 0x90 0x00 0 p0) (fun t => (t.cpu.a, t.cpu.p.z)) =
      some (0x00, true) := by decide +kernel

/-- S1. -/
theorem test_pha :
    after [0x48] (cpuWith 0x42 0 0 p0) (fun t => (t.ram.read 0x1FD, t.cpu.sp, t.cpu.cycles)) =
      some (0x42, 0xFC, 3) := by decide +kernel

/-- S3. -/
theorem test_pha_wraps :
    after [0x48] (spAt 0x00 (cpuWith 0x11 0 0 p0)) (fun t => (t.ram.read 0x100, t.cpu.sp)) =
      some (0x11, 0xFF) := by decide +kernel

/-- S2. -/
theorem test_pla_zero :
    after [0x68] (spAt 0xFC (cpuWith 0x42 0 0 p0)) (fun t => (t.cpu.a, t.cpu.p, t.cpu.sp)) =
      some (0x00, flags 0 0 0 1 1 0, 0xFD) := by decide +kernel

/-- S4. -/
theorem test_pla_wraps :
    after [0x68] (spAt 0xFF (putRam [(0x100, 0x80)] start)) (fun t => (t.cpu.a, t.cpu.sp)) =
      some (0x80, 0x00) := by decide +kernel

/-- S5. -/
theorem test_php_sets_5_and_4 :
    after [0x08] start (fun t => (t.ram.read 0x1FD, t.cpu.sp)) =
      some (0x34, 0xFC) := by decide +kernel

/-- S6. -/
theorem test_php_all_but_i :
    after [0x08] (cpuWith 0 0 0 (flags 1 1 1 0 1 1)) (fun t => t.ram.read 0x1FD) =
      some 0xFB := by decide +kernel

/-- S7. -/
theorem test_plp_all :
    after [0x28] (spAt 0xFC (putRam [(0x1FD, 0xFF)] start)) (fun t => (t.cpu.p, t.cpu.sp)) =
      some (flags 1 1 1 1 1 1, 0xFD) := by decide +kernel

/-- S8. -/
theorem test_plp_ignores_5_and_4 :
    after [0x28] (spAt 0xFC (putRam [(0x1FD, 0x30)] start)) (fun t => (t.cpu.p, t.cpu.cycles)) =
      some (flags 0 0 0 0 0 0, 4) := by decide +kernel

/-- A2. -/
theorem test_adc_overflow :
    after [0x69, 0x50] (cpuWith 0x50 0 0 p0) (fun t => (t.cpu.a, t.cpu.p, t.cpu.cycles)) =
      some (0xA0, flags 1 1 0 1 0 0, 2) := by decide +kernel

/-- A3. -/
theorem test_adc_carry_and_overflow :
    after [0x69, 0x90] (cpuWith 0xD0 0 0 p0) (fun t => (t.cpu.a, t.cpu.p)) =
      some (0x60, flags 0 1 0 1 0 1) := by decide +kernel

/-- A11. -/
theorem test_sbc_borrow_in :
    after [0xE9, 0x00] (cpuWith 0x00 0 0 p0) (fun t => (t.cpu.a, t.cpu.p)) =
      some (0xFF, flags 1 0 0 1 0 0) := by decide +kernel

/-- A12. -/
theorem test_sbc_overflow :
    after [0xE9, 0x01] (cpuWith 0x80 0 0 pC) (fun t => (t.cpu.a, t.cpu.p)) =
      some (0x7F, flags 0 1 0 1 0 1) := by decide +kernel

/-- A15. -/
theorem test_cmp_unsigned :
    after [0xC9, 0xC0] (cpuWith 0x40 0 0 p0) (fun t => (t.cpu.a, t.cpu.p)) =
      some (0x40, flags 1 0 0 1 0 0) := by decide +kernel

/-- A13. -/
theorem test_cmp_keeps_v :
    after [0xC9, 0x40] (cpuWith 0x40 0 0 (flags 0 1 0 1 0 0)) (fun t => t.cpu.p) =
      some (flags 0 1 0 1 1 1) := by decide +kernel

/-- A17. -/
theorem test_cpx : after [0xE0, 0x00] start (fun t => t.cpu.p) = some (flags 0 0 0 1 1 1) := by
  decide +kernel

/-- A18. -/
theorem test_cpy :
    after [0xC0, 0x00] (cpuWith 0 0 0x80 p0) (fun t => t.cpu.p) =
      some (flags 1 0 0 1 0 1) := by decide +kernel

/-- A19. -/
theorem test_and :
    after [0x29, 0x0F] (cpuWith 0xF0 0 0 p0) (fun t => (t.cpu.a, t.cpu.p.z)) =
      some (0x00, true) := by decide +kernel

/-- A20. -/
theorem test_ora :
    after [0x09, 0x0F] (cpuWith 0xF0 0 0 p0) (fun t => (t.cpu.a, t.cpu.p.n)) =
      some (0xFF, true) := by decide +kernel

/-- A21. -/
theorem test_eor :
    after [0x49, 0xFF] (cpuWith 0xFF 0 0 p0) (fun t => (t.cpu.a, t.cpu.p.z)) =
      some (0x00, true) := by decide +kernel

/-- A22. -/
theorem test_bit :
    after [0x24, 0x10] (putRam [(0x10, 0xC0)] (cpuWith 0x01 0 0 p0)) (fun t => (t.cpu.a, t.cpu.p, t.cpu.cycles)) =
      some (0x01, flags 1 1 0 1 1 0, 3) := by decide +kernel

/-- A24. -/
theorem test_inc_wraps :
    after [0xE6, 0x10] (putRam [(0x10, 0xFF)] (cpuWith 0 0 0 pC))
      (fun t => (t.ram.read 0x10, t.cpu.p, t.cpu.cycles)) =
      some (0x00, flags 0 0 0 1 1 1, 5) := by decide +kernel

/-- A26. -/
theorem test_inc_no_page_penalty :
    after [0xFE, 0xF0, 0x02] (putRam [(0x310, 0x7F)] (cpuWith 0 0x20 0 p0))
      (fun t => (t.ram.read 0x310, t.cpu.cycles)) =
      some (0x80, 7) := by decide +kernel

/-- A25. -/
theorem test_dec_wraps :
    after [0xC6, 0x10] start (fun t => (t.ram.read 0x10, t.cpu.p)) =
      some (0xFF, flags 1 0 0 1 0 0) := by decide +kernel

/-- A27. -/
theorem test_inx_wraps :
    after [0xE8] (cpuWith 0 0xFF 0 p0) (fun t => (t.cpu.x, t.cpu.p.z)) =
      some (0x00, true) := by decide +kernel

/-- R264. -/
theorem test_iny :
    after [0xC8] (cpuWith 0 0 0x7F p0) (fun t => (t.cpu.y, t.cpu.p.n)) =
      some (0x80, true) := by decide +kernel

/-- R265. -/
theorem test_dex :
    after [0xCA] (cpuWith 0 0x01 0 p0) (fun t => (t.cpu.x, t.cpu.p.z)) =
      some (0x00, true) := by decide +kernel

/-- A28. -/
theorem test_dey_wraps : after [0x88] start (fun t => (t.cpu.y, t.cpu.p.n)) = some (0xFF, true) := by
  decide +kernel

/-- H1. -/
theorem test_asl_acc :
    after [0x0A] (cpuWith 0x80 0 0 p0) (fun t => (t.cpu.a, t.cpu.p)) =
      some (0x00, flags 0 0 0 1 1 1) := by decide +kernel

/-- H2. -/
theorem test_asl_mem :
    after [0x06, 0x10] (putRam [(0x10, 0x41)] start) (fun t => (t.ram.read 0x10, t.cpu.p, t.cpu.cycles)) =
      some (0x82, flags 1 0 0 1 0 0, 5) := by decide +kernel

/-- H4. -/
theorem test_lsr_acc :
    after [0x4A] (cpuWith 0xFF 0 0 (flags 1 0 0 1 0 0)) (fun t => (t.cpu.a, t.cpu.p)) =
      some (0x7F, flags 0 0 0 1 0 1) := by decide +kernel

/-- H9. -/
theorem test_lsr_mem :
    after [0x5E, 0xF0, 0x02] (putRam [(0x310, 0x01)] (cpuWith 0 0x20 0 p0))
      (fun t => (t.ram.read 0x310, t.cpu.p, t.cpu.cycles)) =
      some (0x00, flags 0 0 0 1 1 1, 7) := by decide +kernel

/-- H5. -/
theorem test_rol :
    after [0x2A] (cpuWith 0x80 0 0 pC) (fun t => (t.cpu.a, t.cpu.p)) =
      some (0x01, flags 0 0 0 1 0 1) := by decide +kernel

/-- H7. -/
theorem test_ror_with_carry :
    after [0x6A] (cpuWith 0x01 0 0 pC) (fun t => (t.cpu.a, t.cpu.p)) =
      some (0x80, flags 1 0 0 1 0 1) := by decide +kernel

/-- H8. -/
theorem test_ror_without_carry :
    after [0x6A] (cpuWith 0x01 0 0 p0) (fun t => (t.cpu.a, t.cpu.p)) =
      some (0x00, flags 0 0 0 1 1 1) := by decide +kernel

/-- J1. -/
theorem test_bne_taken_backwards :
    after [0xD0, 0xFE] (pcAt 0x8000 start) (fun t => (t.cpu.pc, t.cpu.cycles)) =
      some (0x8000, 3) := by decide +kernel

/-- J2. -/
theorem test_bne_not_taken :
    after [0xD0, 0xFE] (pcAt 0x8000 (cpuWith 0 0 0 (flags 0 0 0 1 1 0))) (fun t => (t.cpu.pc, t.cpu.cycles)) =
      some (0x8002, 2) := by decide +kernel

/-- J3. -/
theorem test_bcc_to_another_page :
    after [0x90, 0x10] (pcAt 0x80F0 start) (fun t => (t.cpu.pc, t.cpu.cycles)) =
      some (0x8102, 4) := by decide +kernel

/-- J4. -/
theorem test_bmi_backwards_to_another_page :
    after [0x30, 0x80] (pcAt 0x8100 (cpuWith 0 0 0 (flags 1 0 0 1 0 0))) (fun t => (t.cpu.pc, t.cpu.cycles)) =
      some (0x8082, 4) := by decide +kernel

/-- J6. -/
theorem test_bvc_not_taken :
    after [0x50, 0x10] (pcAt 0xC000 (cpuWith 0 0 0 (flags 0 1 0 1 0 0))) (fun t => (t.cpu.pc, t.cpu.cycles)) =
      some (0xC002, 2) := by decide +kernel

/-- R323. -/
theorem test_bcs_taken :
    after [0xB0, 0x10] (pcAt 0xC000 (cpuWith 0 0 0 pC)) (fun t => (t.cpu.pc, t.cpu.cycles)) =
      some (0xC012, 3) := by decide +kernel

/-- R324. -/
theorem test_beq_not_taken :
    after [0xF0, 0x10] (pcAt 0xC000 start) (fun t => (t.cpu.pc, t.cpu.cycles)) =
      some (0xC002, 2) := by decide +kernel

/-- R327. -/
theorem test_bpl_taken :
    after [0x10, 0x10] (pcAt 0xC000 start) (fun t => (t.cpu.pc, t.cpu.cycles)) =
      some (0xC012, 3) := by decide +kernel

/-- R329. -/
theorem test_bvs_taken :
    after [0x70, 0x10] (pcAt 0xC000 (cpuWith 0 0 0 (flags 0 1 0 1 0 0))) (fun t => (t.cpu.pc, t.cpu.cycles)) =
      some (0xC012, 3) := by decide +kernel

/-- J7. -/
theorem test_jmp :
    after [0x4C, 0x34, 0x12] start (fun t => (t.cpu.pc, t.cpu.cycles)) =
      some (0x1234, 3) := by decide +kernel

/-- J8. -/
theorem test_jmp_indirect_wraps_in_page :
    after [0x6C, 0xFF, 0x02] (putRam [(0x2FF, 0x34), (0x200, 0x12), (0x300, 0x56)] start)
      (fun t => (t.cpu.pc, t.cpu.cycles)) =
      some (0x1234, 5) := by decide +kernel

/-- J9. -/
theorem test_jsr :
    after [0x20, 0x00, 0xD0] (pcAt 0xC000 start)
      (fun t => (t.ram.read 0x1FD, t.ram.read 0x1FC, t.cpu.sp, t.cpu.pc, t.cpu.cycles)) =
      some (0xC0, 0x02, 0xFB, 0xD000, 6) := by decide +kernel

/-- J10. -/
theorem test_rts :
    after [0x60] (spAt 0xFB (putRam [(0x1FC, 0x02), (0x1FD, 0xC0)] start))
      (fun t => (t.cpu.pc, t.cpu.sp, t.cpu.cycles)) =
      some (0xC003, 0xFD, 6) := by decide +kernel

/-- J11. -/
theorem test_rti :
    after [0x40] (spAt 0xFA (putRam [(0x1FB, 0x20), (0x1FC, 0x34), (0x1FD, 0x12)] start))
      (fun t => (t.cpu.p, t.cpu.pc, t.cpu.sp)) =
      some (flags 0 0 0 0 0 0, 0x1234, 0xFD) := by decide +kernel

/-- J12. -/
theorem test_brk :
    after [0x00] (pcAt 0xC000 (putRom [(0xFFFE, 0x00), (0xFFFF, 0xE0)] start))
      (fun t => (t.ram.read 0x1FD, t.ram.read 0x1FC, t.ram.read 0x1FB, t.cpu.sp, t.cpu.pc)) =
      some (0xC0, 0x02, 0x34, 0xFA, 0xE000) := by decide +kernel

/-- J13. -/
theorem test_brk_keeps_d :
    after [0x00] (pcAt 0xC000 (cpuWith 0 0 0 (flags 0 0 1 0 0 0))) (fun t => (t.ram.read 0x1FB, t.cpu.p)) =
      some (0x38, flags 0 0 1 1 0 0) := by decide +kernel

/-- J14. -/
theorem test_nop :
    after [0xEA] start (fun t => (t.cpu.pc, t.cpu.p, t.cpu.cycles)) =
      some (0x0401, p0, 2) := by decide +kernel

/-- F1. -/
theorem test_clc : after [0x18] (cpuWith 0 0 0 pC) (fun t => t.cpu.p) = some p0 := by
  decide +kernel

/-- F2. -/
theorem test_sec : after [0x38] start (fun t => t.cpu.p) = some pC := by
  decide +kernel

/-- F3. -/
theorem test_cli : after [0x58] start (fun t => t.cpu.p) = some (flags 0 0 0 0 0 0) := by
  decide +kernel

/-- F4. -/
theorem test_sei : after [0x78] (cpuWith 0 0 0 (flags 0 0 0 0 0 0)) (fun t => t.cpu.p) = some p0 := by
  decide +kernel

/-- F5. -/
theorem test_cld : after [0xD8] (cpuWith 0 0 0 (flags 0 0 1 1 0 0)) (fun t => t.cpu.p) = some p0 := by
  decide +kernel

/-- F6. -/
theorem test_sed : after [0xF8] start (fun t => t.cpu.p) = some (flags 0 0 1 1 0 0) := by
  decide +kernel

/-- A7 and F6. -/
theorem test_adc_ignores_d :
    after [0x69, 0x01] (cpuWith 0x09 0 0 (flags 0 0 1 1 0 0)) (fun t => (t.cpu.a, t.cpu.p.c)) =
      some (0x0A, false) := by decide +kernel

/-- F7. -/
theorem test_clv : after [0xB8] (cpuWith 0 0 0 (flags 0 1 0 1 0 0)) (fun t => t.cpu.p) = some p0 := by
  decide +kernel

/-- U1. -/
theorem test_slo :
    after [0x07, 0x10] (putRam [(0x10, 0x81)] (cpuWith 0x01 0 0 p0)) (fun t => (t.ram.read 0x10, t.cpu.a, t.cpu.p)) =
      some (0x02, 0x03, pC) := by decide +kernel

/-- U2. -/
theorem test_rla :
    after [0x27, 0x10] (putRam [(0x10, 0x80)] (cpuWith 0xFF 0 0 pC)) (fun t => (t.ram.read 0x10, t.cpu.a, t.cpu.p)) =
      some (0x01, 0x01, pC) := by decide +kernel

/-- U3. -/
theorem test_sre :
    after [0x47, 0x10] (putRam [(0x10, 0x03)] (cpuWith 0x0F 0 0 p0)) (fun t => (t.ram.read 0x10, t.cpu.a, t.cpu.p)) =
      some (0x01, 0x0E, pC) := by decide +kernel

/-- U4. -/
theorem test_rra :
    after [0x67, 0x10] (putRam [(0x10, 0x02)] (cpuWith 0x7F 0 0 p0)) (fun t => (t.ram.read 0x10, t.cpu.a, t.cpu.p)) =
      some (0x01, 0x80, flags 1 1 0 1 0 0) := by decide +kernel

/-- U5. -/
theorem test_sax :
    after [0x87, 0x10] (cpuWith 0xF0 0x3C 0 p0) (fun t => (t.ram.read 0x10, t.cpu.p, t.cpu.cycles)) =
      some (0x30, p0, 3) := by decide +kernel

/-- U6. -/
theorem test_lax :
    after [0xA7, 0x10] (putRam [(0x10, 0x80)] start) (fun t => (t.cpu.a, t.cpu.x, t.cpu.p.n)) =
      some (0x80, 0x80, true) := by decide +kernel

/-- U7. -/
theorem test_dcp :
    after [0xC7, 0x10] (cpuWith 0xFF 0 0 p0) (fun t => (t.ram.read 0x10, t.cpu.p)) =
      some (0xFF, flags 0 0 0 1 1 1) := by decide +kernel

/-- U8. -/
theorem test_isc :
    after [0xE7, 0x10] (putRam [(0x10, 0xFF)] (cpuWith 0x10 0 0 pC))
      (fun t => (t.ram.read 0x10, t.cpu.a, t.cpu.p.c)) =
      some (0x00, 0x10, true) := by decide +kernel

/-- U9. -/
theorem test_anc :
    after [0x2B, 0x80] (cpuWith 0x7F 0 0 p0) (fun t => (t.cpu.a, t.cpu.p)) =
      some (0x00, flags 0 0 0 1 1 0) := by decide +kernel

/-- U10. -/
theorem test_alr :
    after [0x4B, 0x01] (cpuWith 0x01 0 0 p0) (fun t => (t.cpu.a, t.cpu.p)) =
      some (0x00, flags 0 0 0 1 1 1) := by decide +kernel

/-- U11. -/
theorem test_arr_no_overflow :
    after [0x6B, 0xC0] (cpuWith 0xFF 0 0 p0) (fun t => (t.cpu.a, t.cpu.p)) =
      some (0x60, pC) := by decide +kernel

/-- U12. -/
theorem test_arr_overflow :
    after [0x6B, 0x80] (cpuWith 0xFF 0 0 p0) (fun t => (t.cpu.a, t.cpu.p)) =
      some (0x40, flags 0 1 0 1 0 1) := by decide +kernel

/-- U14. -/
theorem test_sbx_borrow :
    after [0xCB, 0x01] (cpuWith 0x0F 0xF0 0 pC) (fun t => (t.cpu.x, t.cpu.p)) =
      some (0xFF, flags 1 0 0 1 0 0) := by decide +kernel

/-- U15. -/
theorem test_sbc_eb :
    after [0xEB, 0x10] (cpuWith 0x50 0 0 pC) (fun t => (t.cpu.a, t.cpu.p.c)) =
      some (0x40, true) := by decide +kernel

/-- U18. -/
theorem test_las :
    after [0xBB, 0x00, 0x03] (putRam [(0x300, 0x8F)] start) (fun t => (t.cpu.a, t.cpu.x, t.cpu.sp, t.cpu.cycles)) =
      some (0x8D, 0x8D, 0x8D, 4) := by decide +kernel

/-- U19. -/
theorem test_sha :
    after [0x9F, 0x00, 0x02] (cpuWith 0xFF 0xFF 0 p0) (fun t => (t.ram.read 0x200, t.cpu.cycles)) =
      some (0x03, 5) := by decide +kernel

/-- R411. -/
theorem test_shx_substitutes_address :
    after [0x9E, 0xF0, 0x06] (cpuWith 0 0x01 0x20 p0) (fun t => (t.ram.read 0x110, t.ram.read 0x710)) =
      some (0x01, 0x00) := by decide +kernel

/-- R410. -/
theorem test_shy :
    after [0x9C, 0x00, 0x05] (cpuWith 0 0x00 0x7F p0) (fun t => t.ram.read 0x500) =
      some 0x06 := by decide +kernel

/-- R412. -/
theorem test_tas :
    after [0x9B, 0xFF, 0x07] (cpuWith 0xF3 0x3F 0 p0) (fun t => (t.cpu.sp, t.cpu.a)) =
      some (0x33, 0xF3) := by decide +kernel

/-- U20. -/
theorem test_nop_page_cross :
    after [0x1C, 0xF0, 0x12] (cpuWith 0 0x20 0 p0) (fun t => (t.cpu.pc, t.cpu.cycles)) =
      some (0x0403, 5) := by decide +kernel

/-- U21. -/
theorem test_nop_immediate :
    after [0x80, 0x44] start (fun t => (t.cpu.pc, t.cpu.cycles)) =
      some (0x0402, 2) := by decide +kernel

/-- U22. -/
theorem test_jam :
    after [0x02] (pcAt 0x8000 start) (fun t => (t.cpu.halted, t.cpu.pc, t.cpu.cycles)) =
      some (true, 0x8001, 2) := by decide +kernel

/-- R407, whatever the constant. -/
theorem test_ane_zero_mask :
    after [0x8B, 0x00] (cpuWith 0xFF 0xFF 0 p0) (fun t => (t.cpu.y, t.cpu.cycles)) =
      some (0x00, 2) := by decide +kernel

/-- R408, whatever the constant. -/
theorem test_lxa_no_carry_change :
    after [0xAB, 0x00] (cpuWith 0xFF 0xFF 0 pC) (fun t => (t.cpu.p.c, t.cpu.cycles)) =
      some (true, 2) := by decide +kernel

/-- P13, from an empty page 2 with OAM byte FF set before. -/
theorem test_dma_even :
    after [0x8D, 0x14, 0x40] { cpuWith 0x02 0 0 p0
        with ppu := { start.ppu with oam := [(0xFF, 0x55)], oamAddr := 0x10 } }
      (fun t => (t.ppu.oam, t.ppu.oamAddr, t.cpu.cycles)) =
      some ([], 0x10, 517) := by decide +kernel

/-! Interrupts, reset and the PPU. -/

/-- The state of vector X1. -/
def x1 : State :=
  pcAt 0xC123 (putRom [(0xFFFA, 0x00), (0xFFFB, 0x90), (0x9000, 0x40)] (cpuWith 0 0 0 pC))

/-- X1. -/
theorem test_nmi_frame :
    ((nmi x1).ram.read 0x1FD, (nmi x1).ram.read 0x1FC, (nmi x1).ram.read 0x1FB, (nmi x1).cpu.sp, (nmi x1).cpu.pc) =
      (0xC1, 0x23, 0x25, 0xFA, 0x9000) := by decide +kernel

/-- X2. -/
theorem test_rti_after_nmi :
    (nextOf (cpuStep (nmi x1))).map (fun t => (t.cpu.pc, t.cpu.sp, t.cpu.p)) = some (0xC123, 0xFD, pC) := by
  decide +kernel

/-- `State.reset` is the power-on (R700) of the blank cartridge with every open content 0. -/
theorem test_reset_is_power_on :
    State.powerOn { ram := [], vram := [], fsVram := [], palette := [], oam := [], prgRam := [], chrRam := [] } Cart.blank
      = State.reset := by decide

/-- X5. -/
theorem test_reset_clears_halt :
    let s := putRom [(0xFFFC, 0x00), (0xFFFD, 0xC0)] { start with cpu := { start.cpu with halted := true, a := 0x12 } }
    ((cpuReset s).cpu.a, (cpuReset s).cpu.sp, (cpuReset s).cpu.halted, (cpuReset s).cpu.pc, (cpuReset s).cpu.cycles) =
      (0x00, 0xFD, false, 0xC000, 7) := by decide +kernel

/-- R702, the row `irq_line` of the machine-reset column; the debt and the pending NMI go too (R701). -/
theorem test_machine_reset_lowers_irq_line :
    let s :=
      { start with
        cpu := { start.cpu with irqLine := true }
        sync := { start.sync with debt := 5, nmiPending := true } }
    ((machineReset s).cpu.irqLine, (machineReset s).sync.debt, (machineReset s).sync.nmiPending,
      (cpuReset s).cpu.irqLine) = (false, 0, false, true) := by decide +kernel

/-- P1. -/
theorem test_status_read :
    let p := { start.ppu with vblank := true, w := true, ioLatch := 0x1F }
    ((p.regRead Cart.blank 2).1, (p.regRead Cart.blank 2).2.vblank, (p.regRead Cart.blank 2).2.w) =
      (0x9F, false, false) := by decide +kernel

/-- P3, the fold of the writes by register and byte. -/
theorem test_scroll_and_address_writes :
    let q := ([(0, 0x00), (5, 0x7D), (5, 0x5E), (6, 0x3D), (6, 0xF0)] : List (BitVec 3 × Byte)).foldl
      (fun p cell => (p.regWrite Cart.blank cell.1 cell.2).1) start.ppu
    (q.v, q.t, q.x, q.w) = (0x3DF0, 0x3DF0, 5, false) := by decide +kernel

/-- P5 and P6. -/
theorem test_palette_write :
    let q := ({ start.ppu with v := 0x3F10 }.regWrite Cart.blank 7 0x0F).1
    let r := ({ start.ppu with v := 0x3F01 }.regWrite Cart.blank 7 0xFF).1
    (q.palette.read 0, q.v, r.palette.read 1) = (0x0F, 0x3F11, 0x3F) := by decide +kernel

/-- P7. -/
theorem test_palette_read :
    let p := { start.ppu with v := 0x3F00, palette := [(0, 0x0F)], ioLatch := 0xC0, readBuffer := 0x12
                              ciram := [(0x700, 0x33)] }
    ((p.regRead Cart.blank 7).1, (p.regRead Cart.blank 7).2.readBuffer, (p.regRead Cart.blank 7).2.v) =
      (0xCF, 0x33, 0x3F01) := by decide +kernel

/-- P12. -/
theorem test_oam_data_writes :
    let q := ([0x11, 0x22, 0x33] : List Byte).foldl (fun p v => (p.regWrite Cart.blank 4 v).1)
      { start.ppu with oamAddr := 0xFE }
    (q.oam.read 0xFE, q.oam.read 0xFF, q.oam.read 0x00, q.oamAddr) = (0x01, 0x22, 0x33, 0x01) := by decide +kernel

/-- P10 and P11. -/
theorem test_ctrl_write_requests_nmi :
    let p := { start.ppu with vblank := true }
    ((p.regWrite Cart.blank 0 0x80).1.nmiRequest, ({ p with ctrl := 0x80 }.regWrite Cart.blank 0 0x80).1.nmiRequest) =
      (true, false) := by decide +kernel

/-- P15: coarse X and fine Y move at dot 256 (R510), the horizontal bits are copied at dot 257. -/
theorem test_scroll_dots :
    let p := { start.ppu with mask := 0x08, t := 0x041F }
    (({ p with dot := 256 }.step Cart.blank).1.v, ({ p with dot := 257, scanline := 5 }.step Cart.blank).1.v) =
      (0x1001, 0x041F) := by decide +kernel

/-- Section 1.5: VBlank starts at (241, 1) and its NMI is reported by that step. -/
theorem test_vblank_start :
    let r := { start.ppu with ctrl := 0x80, scanline := 241, dot := 1 }.step Cart.blank
    (r.1.vblank, r.2.nmi, r.1.nmiRequest) = (true, true, false) := by decide +kernel

/-- P14, one pixel. -/
theorem test_backdrop_pixel :
    let p := { start.ppu with palette := [(0, 0x21)], scanline := 3, dot := 5 }
    (p.step Cart.blank).1.frameBuffer = [(3 * 256 + 4, 0x021)] := by decide +kernel

/-- CA1 to CA4. -/
theorem test_load_errors :
    load ⟨[], [], [], [], [], [], []⟩ [0x4E, 0x45, 0x53] = .error .truncated ∧
      load ⟨[], [], [], [], [], [], []⟩ ([0x4E, 0x45, 0x53, 0x00] ++ List.replicate 12 0) = .error .badMagic ∧
      load ⟨[], [], [], [], [], [], []⟩ ([0x4E, 0x45, 0x53, 0x1A, 0x00] ++ List.replicate 11 0) =
        .error .malformedHeader ∧
      load ⟨[], [], [], [], [], [], []⟩ ([0x4E, 0x45, 0x53, 0x1A, 0x01, 0x00, 0x40] ++ List.replicate 9 0) =
        .error (.unsupportedMapper 4) := ⟨rfl, rfl, rfl, rfl⟩

/-- CA9 and CA10. -/
theorem test_bank_switch :
    let c := { Cart.blank with mapper := .uxrom, prgBanks := 8
                               prgRom := [(0x4000, 0x11), (0xC000, 0x33), (0x1C000, 0x77)] }
    ((c.cpuWrite 0x8000 0x03).cpuRead 0x8000, (c.cpuWrite 0x8000 0x03).cpuRead 0xC000,
      (c.cpuWrite 0xFFFF 0x09).cpuRead 0x8000) = (0x33, 0x77, 0x11) := by decide +kernel

/-- CA11 and CA14. -/
theorem test_chr_bank_and_prg_ram :
    let c := { Cart.blank with mapper := .cnrom, chrBanks := 4, chrIsRam := false, chr := [(0x2000, 0x5A)] }
    ((c.cpuWrite 0x8000 0x01).ppuRead 0, (c.cpuWrite 0x6000 0x99).cpuRead 0x6000, c.cpuRead 0x5000) =
      (0x5A, 0x99, 0x00) := by decide +kernel

/-- CT3 to CT5. -/
theorem test_strobe :
    let c : Controller := { cursor := 3, strobe := false }
    ((c.strobeWrite 0x00).cursor, (c.strobeWrite 0xFE).cursor, ({ c with strobe := true }.strobeWrite 0x00).cursor) =
      (3, 3, 0) := by decide +kernel

/-- SY1: a two-cycle instruction owes six dots, all stepped before the step ends. -/
theorem test_step_pays_six_dots :
    (nextOf (step (place [0xEA] start))).map (fun t => (t.ppu.dot, t.sync.debt, t.sync.dots)) = some (6, 0, 6) := by
  decide +kernel

/-- SY2: the third of twelve dots raises frame-ready, nine stay owed, the frame is presented. -/
theorem test_frame_ready_keeps_debt :
    (nextOf (step (place [0xAD, 0x00, 0x00]
      { start with ppu := { start.ppu with scanline := 261, dot := 338 } }))).map
      (fun t => (t.ppu.scanline, t.ppu.dot, t.sync.debt, t.host.presented)) = some (0, 0, 9, 1) := by decide +kernel

/-- SY4. -/
theorem test_pending_nmi_runs_first :
    (nextOf (step { start with sync := { start.sync with nmiPending := true } })).map
      (fun t => (t.sync.nmiPending, t.cpu.sp, t.cpu.cycles)) = some (false, 0xFA, 7) := by decide +kernel

/-- The fetch of a placed instruction: it runs as the first step after reset. -/
theorem test_with_fetch_word :
    (nextOf (step (State.reset.withFetchWord 16 0x80A9))).map (fun t => (t.cpu.a, t.cpu.pc)) = some (0x80, 0x0002) := by
  decide +kernel

/-! Witnesses: for every statement with hypotheses, a state and operands that meet them, at the boundaries of its
clauses. -/

/-- Power-on contents of zeros. -/
def zeros : PowerOnContents := ⟨[], [], [], [], [], [], []⟩

/-- A cartridge with two PRG banks and CHR ROM, under a mapper and a mirroring. -/
def cartWith (m : Mapper) (r : Mirroring) : Cart :=
  { Cart.blank with mapper := m, mirroring := r, prgBanks := 2, chrIsRam := false }

theorem witness_DecodeOfEncode :
    (Instr.jam 0x02).wellFormed = true ∧ decode (encode (.jam 0x02) ++ [0xEA]) = .ok (.jam 0x02, [0xEA]) :=
  ⟨rfl, rfl⟩

theorem witness_EncodeOfDecode : decode [0xAD, 0x34, 0x12, 0xEA] = .ok (.ldaAbs 0x1234, [0xEA]) := rfl

theorem witness_StepRunsFetchedInstruction :
    takesReset State.reset = false ∧ State.reset.sync.debt = 0 ∧ State.reset.sync.nmiPending = false ∧
      (State.reset.cpu.irqLine && !State.reset.cpu.p.i) = false ∧ State.reset.cpu.halted = false := by decide

/-- At the last two bytes before the device windows. -/
theorem witness_FetchReadsMemoryAtPc :
    let s := pcAt 0x1FFE (putRam [(0x7FE, 0xA9), (0x7FF, 0x42)] start)
    (Instr.ldaImm 0x42).wellFormed = true ∧
      ∀ (k : Nat) (b : Byte), (encode (.ldaImm 0x42))[k]? = some b →
        outsideDevices (s.cpu.pc + BitVec.ofNat 16 k) = true ∧ peek s (s.cpu.pc + BitVec.ofNat 16 k) = b := by
  refine ⟨rfl, ?_⟩
  rintro (_ | _ | k) b h
  · cases h; decide
  · cases h; decide
  · simp [encode, bytes2] at h

theorem witness_EffectiveAddresses :
    (Instr.saxZpY 0xFF).operand.mode = .zpY ∧ decode [0xA5, 0x10, 0xEA] = .ok (.ldaZp 0x10, [0xEA]) ∧
      decode [0x6C, 0xFF, 0x02, 0xEA] = .ok (.jmpInd 0x02FF, [0xEA]) := ⟨rfl, rfl, rfl⟩

theorem witness_LoadsFillRegister :
    (Instr.ldaIzX 0xFF).mnemonic = .lda ∧ (Instr.ldxZpY 0xFF).mnemonic = .ldx ∧
      (Instr.ldyAbsX 0xFFFF).mnemonic = .ldy :=
  ⟨rfl, rfl, rfl⟩

theorem witness_StoresWriteRegister :
    (Instr.staAbs 0x4014).mnemonic = .sta ∧ (Instr.stxZpY 0xFF).mnemonic = .stx ∧ (Instr.styZpX 0xFF).mnemonic = .sty ∧
      (Instr.saxIzX 0xFF).mnemonic = .sax := ⟨rfl, rfl, rfl, rfl⟩

theorem witness_AddAndSubtract :
    (Instr.adcIzY 0xFF).mnemonic = .adc ∧ (Instr.sbcImm 0x00).mnemonic = .sbc ∧ (Instr.sbcImmEB 0x10).mnemonic = .sbc :=
  ⟨rfl, rfl, rfl⟩

theorem witness_LogicInstructions :
    (Instr.andImm 0x00).mnemonic = .and ∧ (Instr.oraAbsY 0xFFFF).mnemonic = .ora ∧
      (Instr.eorIzX 0x00).mnemonic = .eor :=
  ⟨rfl, rfl, rfl⟩

theorem witness_CompareAndBitTest :
    (Instr.cmpImm 0x40).mnemonic = .cmp ∧ (Instr.cpxZp 0x00).mnemonic = .cpx ∧ (Instr.cpyAbs 0x2002).mnemonic = .cpy ∧
      (Instr.bitAbs 0x2002).mnemonic = .bit := ⟨rfl, rfl, rfl, rfl⟩

theorem witness_IncrementAndDecrement :
    (Instr.incZpX 0xFF).mnemonic = .inc ∧ (Instr.decAbs 0x4014).mnemonic = .dec := ⟨rfl, rfl⟩

theorem witness_ShiftsAndRotates :
    (shiftOf (Instr.aslAcc).mnemonic).isSome = true ∧ (shiftOf (Instr.lsrZp 0x10).mnemonic).isSome = true ∧
      (shiftOf (Instr.rolAbsX 0xFFFF).mnemonic).isSome = true ∧ (shiftOf (Instr.rorAcc).mnemonic).isSome = true :=
  ⟨rfl, rfl, rfl, rfl⟩

theorem witness_Branches :
    ([Instr.bcc 0x80, .bcs 0x7F, .beq 0x00, .bne 0xFF, .bmi 0x01, .bpl 0x80, .bvc 0x00, .bvs 0x00].all
      fun i => (branchCondition i.mnemonic).isSome) = true := by decide

theorem witness_JumpsCallsAndReturns : (Instr.jmpInd 0x02FF).operand.mode = .ind := rfl

theorem witness_NoOperations :
    ([Instr.nop, .nopImp 0x1A, .nopImm 0x80 0x44, .nopZp 0x04 0x10, .nopZpX 0x14 0x10, .nopAbs 0x2002,
      .nopAbsX 0x1C 0x12F0].all fun i => decide (i.mnemonic = .nop) && i.wellFormed) = true := by decide

/-- And ADC may set V: A2. -/
theorem witness_FlagInstructions :
    ([Instr.clc, .sec, .cli, .sei, .cld, .sed, .clv].all fun i => (flagWrite i.mnemonic).isSome) = true ∧
      (cpuWith 0x50 0 0 p0).cpu.p.v = false ∧
      (nextOf (exec (.adcImm 0x50) (cpuWith 0x50 0 0 p0))).map (fun t => t.cpu.p.v) = some true := by decide +kernel

theorem witness_JamHaltsUntilReset :
    let s := { start with cpu := { start.cpu with halted := true } }
    (Instr.jam 0xF2).mnemonic = .jam ∧ s.cpu.halted = true ∧ ∃ t, exec .nop s = .next t := ⟨rfl, rfl, _, rfl⟩

theorem witness_ReadModifyWriteCombinations :
    (Instr.sloIzY 0xFF).mnemonic = .slo ∧ (Instr.rlaZp 0x00).mnemonic = .rla ∧ (Instr.sreAbsX 0xFFFF).mnemonic = .sre ∧
      (Instr.rraZpX 0xFF).mnemonic = .rra ∧ (Instr.dcpAbs 0x4014).mnemonic = .dcp ∧
      (Instr.iscIzX 0xFF).mnemonic = .isc :=
  ⟨rfl, rfl, rfl, rfl, rfl, rfl⟩

theorem witness_CombinedLoadsAndImmediates :
    (Instr.laxIzY 0xFF).mnemonic = .lax ∧ (Instr.ancImm 0x0B 0x80).mnemonic = .anc ∧
      (Instr.ancImm 0x2B 0x80).wellFormed = true := ⟨rfl, rfl, rfl⟩

/-- Both addressing modes, and a base whose indexing crosses a page. -/
theorem witness_HighByteStores :
    (Instr.shaIzY 0xFF).mnemonic = .sha ∧ (Instr.shaAbsY 0x06F0).mnemonic = .sha ∧
      (locate (.absY 0x06F0) (cpuWith 0 0 0x20 p0)).1.crossed = true := by decide +kernel

/-- The byte beside the one stored; the first ROM byte under a store below it, and without a PRG bank register. -/
theorem witness_MemoryFrame :
    start.inv = true ∧ (∃ t, exec (.staAbs 0x0300) start = .next t) ∧
      storeAddrs (.staAbs 0x0300) start = [0x0300] ∧ outsideDevices 0x0301 = true ∧
      sameCell 0x0300 0x0301 = false ∧ sameCell 0x0300 0x0B00 = true ∧ outsideDevices 0x8000 = true ∧
      start.cart.mapper ≠ .uxrom ∧ sameCell 0x0300 0x8000 = false ∧ outsideDevices 0x4020 = true ∧
      outsideDevices 0x1FFF = true := ⟨by decide, ⟨_, rfl⟩, by decide, by decide⟩

theorem witness_CpuAndPpuAreApart : ∃ t, exec (.ldaAbs 0x2002) start = .next t := ⟨_, rfl⟩

theorem witness_DecimalFlagHasNoEffect :
    (Instr.adcImm 0x01).mnemonic ∉ [Mnemonic.php, .brk, .plp, .rti, .cld, .sed] := by decide

/-- The last RAM fold and the first and last addresses of the register window. -/
theorem witness_RamAndPpuWindowAreMirrored :
    (0x1FFF : Word).toNat < 0x2000 ∧ start.ram.wf = true ∧ 0x2000 ≤ (0x2000 : Word).toNat ∧
      0x2000 ≤ (0x3FFF : Word).toNat ∧ (0x3FFF : Word).toNat < 0x4000 := by decide

theorem witness_UndrivenAddresses :
    ([0x4000, 0x4013, 0x4014, 0x4015, 0x4018, 0x401F, 0x4020, 0x5FFF].all fun a : Word =>
        decide (0x4000 ≤ a.toNat ∧ a.toNat < 0x6000 ∧ a.toNat ≠ 0x4016 ∧ a.toNat ≠ 0x4017)) = true ∧
      ([0x4000, 0x4013, 0x4015, 0x4017, 0x4018, 0x4020, 0x5FFF].all fun a : Word =>
        decide (0x4000 ≤ a.toNat ∧ a.toNat < 0x6000 ∧ a.toNat ≠ 0x4014 ∧ a.toNat ≠ 0x4016)) = true := by decide

theorem witness_ReadsWithoutSideEffects :
    ([0x0000, 0x1FFF, 0x2000, 0x2001, 0x2004, 0x3FFE, 0x4015, 0x4018, 0x6000, 0xFFFF].all fun a : Word =>
        decide ((0x2000 ≤ a.toNat → a.toNat < 0x4000 → a.toNat % 8 ≠ 2 ∧ a.toNat % 8 ≠ 7) ∧ a.toNat ≠ 0x4016 ∧
          a.toNat ≠ 0x4017)) = true := by decide

/-- The addresses where the clauses meet, under each mapper. -/
theorem witness_CartridgeCpuWindow :
    0x4020 ≤ (0x4020 : Word).toNat ∧ (0x5FFF : Word).toNat < 0x6000 ∧ 0x6000 ≤ (0x6000 : Word).toNat ∧
      (0x7FFF : Word).toNat < 0x8000 ∧ 0x8000 ≤ (0x8000 : Word).toNat ∧ (0xBFFF : Word).toNat < 0xC000 ∧
      0xC000 ≤ (0xC000 : Word).toNat ∧ start.cart.mapper = .nrom ∧
      (cartWith .uxrom .vertical).mapper = .uxrom ∧ (cartWith .cnrom .vertical).mapper = .cnrom := by decide

theorem witness_OamDmaCopiesPage :
    start.ppu.oam.wf = true ∧ (0x1F : Byte).toNat < 0x20 ∧ 0x41 ≤ (0x41 : Byte).toNat := by decide

/-- The addresses where the clauses meet, CHR RAM and CHR ROM, and a four-screen nametable of each kind. -/
theorem witness_PpuAddressSpace :
    (0x1FFF : BitVec 14).toNat < 0x2000 ∧ 0x2000 ≤ (0x2000 : BitVec 14).toNat ∧
      (0x3EFF : BitVec 14).toNat < 0x3F00 ∧ 0x3F00 ≤ (0x3F00 : BitVec 14).toNat ∧
      Cart.blank.chrIsRam = true ∧ (cartWith .cnrom .fourScreen).chrIsRam = false ∧
      (cartWith .cnrom .fourScreen).mapper = .cnrom ∧ Cart.blank.mapper ≠ .cnrom ∧
      (cartWith .cnrom .fourScreen).mirroring = .fourScreen ∧
      2 ≤ ((0x2800 : BitVec 14).toNat - 0x2000) % 0x1000 / 0x400 := by decide

theorem witness_PpuRegisterAccess : (6 : BitVec 3) ∈ ([0, 1, 3, 5, 6] : List (BitVec 3)) := by decide

theorem witness_ScrollAndAddressWrites :
    start.ppu.w = false ∧ { start.ppu with w := true }.w = true := by decide

theorem witness_PpuDataAccess :
    (BitVec.ofNat 14 ({ start.ppu with v := 0x3EFF }.v.toNat % 0x4000)).toNat < 0x3F00 ∧
      0x3F00 ≤ (BitVec.ofNat 14 ({ start.ppu with v := 0x7F00 }.v.toNat % 0x4000)).toNat := by decide

theorem witness_VblankAndNmiReport :
    let p := { start.ppu with scanline := 261, dot := 1, sprite0Hit := true, spriteOverflow := true }
    decide (p.scanline = 261 ∧ p.dot = 1) = true ∧ decide (start.ppu.scanline = 261 ∧ start.ppu.dot = 1) = false := by
  decide

theorem witness_FrameTakes89342Dots : start.ppu.scanline = 0 ∧ start.ppu.dot = 0 := by decide

theorem witness_PixelOutput :
    let p := { start.ppu with scanline := 239, dot := 256 }
    (p.frameBuffer.wf = true ∧ p.scanline ≤ 239 ∧ 1 ≤ p.dot ∧ p.dot ≤ 256) ∧
      (239 < { p with scanline := 240 }.scanline ∨ p.dot = 0 ∨ 256 < p.dot) ∧
      (239 < p.scanline ∨ p.dot = 0 ∨ 256 < { p with dot := 257 }.dot) ∧ start.ppu.dot = 0 ∧
      239 < { p with scanline := 261, dot := 1, sprite0Hit := true }.scanline := by decide

/-- One opaque slot at its eighth column, and no slot at all. -/
theorem witness_PixelSources :
    let sl : Slot := { x := 0xF8, attr := 0x00, lo := 0x01, hi := 0x00 }
    let p := { start.ppu with mask := 0x14, spr := { start.ppu.spr with count := 1, slots := [sl] } }
    (p.mask.toNat.testBit 4 = true ∧ p.mask.toNat.testBit 2 = true) ∧ 0 < p.spr.count ∧ p.spr.slots[0]? = some sl ∧
      sl.x.toNat ≤ 255 ∧ 255 ≤ sl.x.toNat + 7 ∧ sl.lo.toNat.testBit (sl.x.toNat + 7 - 255) = true ∧
      start.ppu.mask.toNat.testBit 4 = false := by decide

/-- Rendering on at the first and last fetching dots of a visible line, where Y moves, where each copy is made and next
to it; rendering off; and rendering on between the lines. -/
theorem witness_ScrollIncrements :
    let on := { start.ppu with mask := 0x08 }
    ([(0, 1), (0, 2), (239, 256), (239, 257), (239, 258), (261, 279), (261, 280), (261, 304), (261, 305), (0, 320),
      (0, 321), (261, 337), (261, 338)].all fun at_ : Nat × Nat =>
        { on with scanline := at_.1, dot := at_.2 }.rendering && { on with scanline := at_.1, dot := at_.2 }.renderLine)
        = true ∧
      start.ppu.rendering = false ∧ { on with scanline := 240 }.renderLine = false ∧
      { on with scanline := 260 }.renderLine = false := by decide

/-- R510, R511, R514: at (0, 9) the registers shift and reload and the nametable byte is fetched; at (0, 11) the palette
of the top right quadrant. -/
theorem test_background_fetch :
    let p :=
      { start.ppu with
        mask := 0x08, dot := 9, v := 0x0002, ciram := [(2, 0x24), (0x3C0, 0x0C)]
        bg := { start.ppu.bg with attr := 1, lo := 0x55, sLo := 0x8001 } }
    ((p.step Cart.blank).1.bg.sLo, (p.step Cart.blank).1.bg.aLo, (p.step Cart.blank).1.bg.aHi,
        (p.step Cart.blank).1.bg.nt, ({ p with dot := 11 }.step Cart.blank).1.bg.attr) =
      (0x0055, 0x00FF, 0x0000, 0x24, 3) := by decide +kernel

/-- R510: at dot 257 the horizontal bits of `t` are copied, at dot 280 of line 261 the vertical bits. -/
theorem test_scroll_copies :
    let p := { start.ppu with mask := 0x10, v := 0x7BFF, t := 0x0400 }
    (({ p with dot := 257 }.step Cart.blank).1.v, ({ p with scanline := 261, dot := 280 }.step Cart.blank).1.v) =
      (0x7FE0, 0x001F) := by decide +kernel

theorem witness_SpriteEvaluation :
    let p := { start.ppu with mask := 0x10, dot := 257, scanline := 239 }
    p.rendering = true ∧ p.dot = 257 ∧ p.scanline ≤ 239 ∧ { p with scanline := 261 }.scanline = 261 ∧
      { p with mask := 0x00 }.rendering = false ∧ { p with scanline := 261 }.renderLine = true ∧ p.renderLine = true ∧
      { p with dot := 256 }.dot ≠ 257 ∧ { p with dot := 258 }.dot ≠ 257 ∧ { p with scanline := 240 }.renderLine = false ∧
      ((List.range 64).filter fun n => decide
        (({ p with oam := [(0, 0xEF), (252, 0xE8)] }.oam.read (4 * n)).toNat ≤ 239 ∧
          239 - ({ p with oam := [(0, 0xEF), (252, 0xE8)] }.oam.read (4 * n)).toNat < 8)) = [0, 63] := by
  decide +kernel

theorem witness_LoadAcceptsAndRefuses : zeros.wf = true := by decide

/-- An image of mapper 0 with `np` PRG banks, no CHR ROM, and the PRG data given. -/
def imageOf (np : Byte) (prg : List Byte) : List Byte :=
  [0x4E, 0x45, 0x53, 0x1A, np, 0, 0, 0, 0, 0, 0, 0, 0, 0, 0, 0] ++ prg

/-- Any PRG data of one and of two banks. -/
theorem witness_ResetVectorComesFromImage (np : Byte) (prg : List Byte) (h : np = 1 ∨ np = 2)
    (hl : prg.length = 16384 * np.toNat) :
    (∃ s : State, powerOnImage zeros (imageOf np prg) = .ok s) ∧
      mapperId ((imageOf np prg).getD 6 0) ((imageOf np prg).getD 7 0) = 0 ∧
      ((imageOf np prg).getD 6 0).toNat.testBit 2 = false ∧ (imageOf np prg).getD 4 0 = np := by
  refine ⟨?_, show mapperId 0 0 = 0 by decide, show (0 : Byte).toNat.testBit 2 = false by decide, rfl⟩
  have hlen : (imageOf np prg).length = 16 + 16384 * np.toNat := by simp [imageOf, hl]; omega
  have hnp : (imageOf np prg).getD 4 0 = np := rfl
  have h4 : (imageOf np prg).take 4 = imageMagic := rfl
  have hm : mapperOf (mapperId ((imageOf np prg).getD 6 0) ((imageOf np prg).getD 7 0)) = some .nrom :=
    show mapperOf (mapperId 0 0) = some .nrom by decide
  have h5 : (imageOf np prg).getD 5 0 = 0 := rfl
  have h6 : bit ((imageOf np prg).getD 6 0) 2 = false := show bit (0 : Byte) 2 = false by decide
  have hne : np ≠ 0 := by rcases h with rfl | rfl <;> decide
  refine ⟨State.powerOn zeros (Cart.ofImage zeros (imageOf np prg) .nrom 16), ?_⟩
  have hload : load zeros (imageOf np prg) = .ok (Cart.ofImage zeros (imageOf np prg) .nrom 16) := by
    rw [load, if_neg (by omega), if_neg (by simp [h4]), if_neg (by rw [hnp]; exact hne), hm]
    simp only [h6, hlen, hnp, h5]
    rw [if_neg (by simp)]
    rfl
  rw [powerOnImage, hload]

/-- An image too short for its header, and any of one bank. -/
theorem witness_ResetSequences (prg : List Byte) (hl : prg.length = 16384) :
    load zeros [] = .error .truncated ∧ ∃ cart : Cart, load zeros (imageOf 1 prg) = .ok cart := by
  refine ⟨rfl, ?_⟩
  obtain ⟨⟨s, hs⟩, -⟩ := witness_ResetVectorComesFromImage 1 prg (.inl rfl) (by simp [hl])
  rw [powerOnImage] at hs
  split at hs
  · cases hs
  · exact ⟨_, ‹_›⟩

theorem witness_InterruptEntry :
    start.cpu.halted = false ∧ { start with cpu := { start.cpu with halted := true } }.cpu.halted = true := by decide

theorem witness_RtiUndoesEntry :
    (spAt 0x01 start).ram.wf = true ∧ (spAt 0x01 start).cpu.halted = false ∧
      ∃ t, exec .brk (spAt 0x01 start) = .next t := ⟨rfl, rfl, _, rfl⟩

/-- A reset between frames and one that waits; with a dot owed: a frame it completes, an NMI it raises, an accepted IRQ,
an IRQ masked; and the same with nothing owed. -/
theorem witness_InterruptPriority :
    let irqUp := { start with cpu := { start.cpu with irqLine := true, p := flags 0 0 0 0 0 0 } }
    let owing (s : State) : State := { s with sync := { s.sync with debt := 1 } }
    let at_ (line dot : Nat) (s : State) : State :=
      { s with ppu := { s.ppu with scanline := line, dot := dot, ctrl := 0x80 } }
    let pressed := { start with host := { start.host with resetRequested := true } }
    (pressed.host.resetRequested = true ∧ pressed.sync.inFrame = false) ∧
      { pressed with sync := { pressed.sync with inFrame := true } }.sync.inFrame = true ∧
      start.host.resetRequested = false ∧ (drain (owing (at_ 261 340 start))).2 = true ∧
      ((drain (owing (at_ 241 1 start))).2 = false ∧ (drain (owing (at_ 241 1 start))).1.sync.nmiPending = true) ∧
      ((drain (owing irqUp)).2 = false ∧ (drain (owing irqUp)).1.sync.nmiPending = false ∧
        (drain (owing irqUp)).1.cpu.irqLine = true ∧ (drain (owing irqUp)).1.cpu.p.i = false) ∧
      ((drain start).2 = false ∧ (drain start).1.sync.nmiPending = false ∧ (drain start).1.cpu.irqLine = false ∧
        start.cpu.p.i = true) ∧
      start.sync.debt = 0 ∧ 0 < (owing start).sync.debt := by decide +kernel

theorem witness_StepKeepsClockExact : State.reset.clockExact ∧ ∃ t, step State.reset = .next t := ⟨rfl, _, rfl⟩

theorem witness_StepKeepsDebtBounded : State.reset.debtBounded ∧ ∃ t, step State.reset = .next t :=
  ⟨⟨by decide, fun _ => rfl⟩, _, rfl⟩

theorem witness_StepKeepsInvariant : State.reset.inv = true ∧ ∃ t, step State.reset = .next t := ⟨by decide, _, rfl⟩

theorem witness_InvariantsHoldAtReset :
    zeros.wf = true ∧ (cartWith .cnrom .fourScreen).inv = true ∧ Cart.blank.inv = true := by decide

theorem witness_StepKeepsRom :
    let s := { start with cart := cartWith .uxrom .vertical }
    (∃ t, step s = .next t) ∧ s.cart.chrIsRam = false ∧ s.cart.mapper ≠ .cnrom ∧ start.cart.mapper ≠ .uxrom :=
  ⟨⟨_, rfl⟩, by decide, by decide, by decide⟩

theorem witness_FramesArePresentedWhole : ∃ t, step State.reset = .next t := ⟨_, rfl⟩

/-- The controller ports, the one hypothesis of the protocol. -/
theorem witness_ControllerProtocol : (0x4016 : Word) = 0x4016 ∧ (0x4017 : Word) ≠ 0x4016 := by decide

end Sys2Proof.Tests
end

section
/-! Every step keeps the state's invariant (10_state.md R51 to R60): what the Synchronizer changes is no part of it, and
everything else a step does is a drain, a CPU action or a machine reset. -/

namespace Sys2Proof.Machine

theorem present_inv {s : State} (h : s.inv = true) : (present s).inv = true := h

theorem owe_inv {before after : State} (h : after.inv = true) : (owe before after).inv = true := h

theorem machineReset_inv {s : State} (h : s.inv = true) : (machineReset s).inv = true := cpuReset_inv h

/-- The CPU action is a sequence of accesses, and the NMI it consumes is no part of the invariant. -/
theorem cpuAction_inv {s t : State} (h : s.inv = true) (ht : cpuAction s = .next t) : t.inv = true := by
  obtain ⟨u, y, hu, hacc, -⟩ := cpuAction_next s
  cases hu.symm.trans ht
  exact hacc.inv h

/-- Settles O56: each of the four ways a step ends keeps the invariant. -/
theorem stepKeepsInvariant : Obligations.StepKeepsInvariant := by
  intro s t hs hstep
  have howed {u : State} (hu : cpuAction (drain s).1 = .next u) : (drain (owe (drain s).1 u)).1.inv = true :=
    drain_inv (owe_inv (cpuAction_inv (drain_inv hs) hu))
  obtain ⟨-, rfl⟩ | ⟨-, -, rfl⟩ | ⟨-, -, u, hu, -, rfl⟩ | ⟨-, -, u, hu, -, rfl⟩ := step_cases hstep
  · exact machineReset_inv hs
  · exact present_inv (drain_inv hs)
  · exact howed hu
  · exact present_inv (howed hu)

end Sys2Proof.Machine
end

section
/-! D has no effect on the machine (10_state.md R41). Replacing D commutes with every bus access, because no device looks
at the CPU, and with every register change but those that load or write D, so it commutes with every shape of
instruction. -/

namespace Sys2Proof.Machine

/-! The bus does not look at the CPU. -/

theorem cpuRead_setCpu (a : Word) (s : State) (c : Cpu) :
    cpuRead a (s.setCpu c) = ((cpuRead a s).1, (cpuRead a s).2.setCpu c) := by
  unfold cpuRead
  simp only [State.setCpu_ram, State.setCpu_ppu, State.setCpu_cart, State.setCpu_ctl1, State.setCpu_ctl2,
    State.setCpu_host]
  cases region a <;> rfl

theorem State.setPpu_setCpu (s : State) (c : Cpu) (p : Ppu) : (s.setCpu c).setPpu p = (s.setPpu p).setCpu c := rfl

theorem dmaCopy_setCpu (page : Byte) (n : Nat) (s : State) (c : Cpu) :
    dmaCopy page n (s.setCpu c) = (dmaCopy page n s).setCpu c := by
  induction n generalizing s with
  | zero => rfl
  | succ n ih =>
    simp only [dmaCopy, cpuRead_setCpu, State.setCpu_ppu, State.setPpu_setCpu, ih]

theorem cpuWrite_setCpu (a : Word) (v : Byte) (s : State) (c : Cpu) :
    cpuWrite a v (s.setCpu c) = (cpuWrite a v s).setCpu c := by
  unfold cpuWrite
  simp only [State.setCpu_ram, State.setCpu_ppu, State.setCpu_cart, State.setCpu_ctl1, State.setCpu_ctl2]
  cases region a with
  | oamDma => exact dmaCopy_setCpu v 256 s c
  | _ => rfl

/-! Replacing D. -/

/-- The registers with D replaced. -/
def Cpu.withD (c : Cpu) (d : Bool) : Cpu := { c with p := { c.p with d := d } }

/-- The state with D replaced. -/
def State.withD (s : State) (d : Bool) : State := s.setCpu (s.cpu.withD d)

theorem State.withD_eq_setP (s : State) (d : Bool) : s.withD d = s.setP { s.cpu.p with d := d } := rfl

/-- A register change that neither looks at D nor changes it. -/
def Cpu.IgnoresD (f : Cpu → Cpu) : Prop := ∀ (c : Cpu) (d : Bool), f (c.withD d) = (f c).withD d

/-- What a read-modify-write makes of its operand is the same byte whatever D is, and its register change ignores D. -/
def Modified.IgnoresD (f : Byte → Cpu → Modified) : Prop :=
  ∀ (m : Byte) (c : Cpu) (d : Bool), f m (c.withD d) = { f m c with cpu := (f m c).cpu.withD d }

/-- A state change that neither looks at D nor changes it. -/
def State.IgnoresD (f : State → State) : Prop := ∀ (s : State) (d : Bool), f (s.withD d) = (f s).withD d

@[simp] theorem State.withD_cpu (s : State) (d : Bool) : (s.withD d).cpu = s.cpu.withD d := rfl

@[simp] theorem State.charge_withD (s : State) (d : Bool) (n : Nat) : (s.withD d).charge n = (s.charge n).withD d := rfl

@[simp] theorem State.setPc_withD (s : State) (d : Bool) (pc : Word) :
    (s.withD d).setPc pc = (s.setPc pc).withD d := rfl

@[simp] theorem dmaStall_withD (a : Word) (base : Nat) (s : State) (d : Bool) :
    dmaStall a base (s.withD d) = dmaStall a base s := rfl

theorem State.mapCpu_withD {f : Cpu → Cpu} (hf : Cpu.IgnoresD f) (s : State) (d : Bool) :
    (s.withD d).mapCpu f = (s.mapCpu f).withD d :=
  congrArg s.setCpu (hf s.cpu d)

@[simp] theorem cpuRead_withD (a : Word) (s : State) (d : Bool) :
    cpuRead a (s.withD d) = ((cpuRead a s).1, (cpuRead a s).2.withD d) := by
  rw [State.withD, cpuRead_setCpu, State.withD, cpuRead_cpu]

@[simp] theorem cpuWrite_withD (a : Word) (v : Byte) (s : State) (d : Bool) :
    cpuWrite a v (s.withD d) = (cpuWrite a v s).withD d := by
  rw [State.withD, cpuWrite_setCpu, State.withD, cpuWrite_cpu]

/-! The stack and the operands. -/

@[simp] theorem push_withD (v : Byte) (s : State) (d : Bool) : push v (s.withD d) = (push v s).withD d := by
  simp only [push_eq]; rfl

@[simp] theorem pull_withD (s : State) (d : Bool) : pull (s.withD d) = ((pull s).1, (pull s).2.withD d) := by
  simp only [pull_eq]; rfl

@[simp] theorem pull16_withD (s : State) (d : Bool) :
    pull16 (s.withD d) = ((pull16 s).1, (pull16 s).2.withD d) := by
  simp only [pull16, pull_withD]

@[simp] theorem readIndirect_withD (p : Word) (s : State) (d : Bool) :
    readIndirect p (s.withD d) = ((readIndirect p s).1, (readIndirect p s).2.withD d) := by
  simp only [readIndirect, cpuRead_withD]

@[simp] theorem locate_withD (p : Place) (s : State) (d : Bool) :
    locate p (s.withD d) = ((locate p s).1, (locate p s).2.withD d) := by
  cases p with
  | izX q | izY q => simp only [locate, readPointer_eq]; rfl
  | _ => rfl

@[simp] theorem loadSource_withD (src : Source) (s : State) (d : Bool) :
    loadSource src (s.withD d) = { loadSource src s with s := (loadSource src s).s.withD d } := by
  cases src with
  | imm m => rfl
  | mem p => simp only [loadSource, locate_withD, cpuRead_withD]

/-! The shapes of instruction. -/

theorem readInstr_ignoresD {f : Byte → Cpu → Cpu} (hf : ∀ m, Cpu.IgnoresD (f m)) (src : Source) (cost : Cost) :
    State.IgnoresD (readInstr f src cost) := by
  intro s d
  simp only [readInstr, loadSource_withD, State.mapCpu_withD (hf _), State.charge_withD]

theorem writeInstr_ignoresD {val : Cpu → Byte} (hv : ∀ c d, val (c.withD d) = val c) (p : Place) (cost : Cost) :
    State.IgnoresD (writeInstr val p cost) := by
  intro s d
  simp only [writeInstr, locate_withD, State.withD_cpu, hv, cpuWrite_withD, dmaStall_withD, State.charge_withD]

theorem modifyInstr_ignoresD {f : Byte → Cpu → Modified} (hf : Modified.IgnoresD f) (p : Place) (cost : Cost) :
    State.IgnoresD (modifyInstr f p cost) := by
  intro s d
  simp only [modifyInstr, locate_withD, cpuRead_withD, State.withD_cpu, hf _ _ d, cpuWrite_withD, dmaStall_withD]
  rfl

theorem modifyAcc_ignoresD {f : Byte → Cpu → Modified} (hf : Modified.IgnoresD f) (cost : Cost) :
    State.IgnoresD (modifyAcc f cost) := by
  intro s d
  simp only [modifyAcc, State.withD_cpu, hf _ _ d]
  rfl

theorem registerInstr_ignoresD {f : Cpu → Cpu} (hf : Cpu.IgnoresD f) (cost : Cost) :
    State.IgnoresD (registerInstr f cost) := by
  intro s d
  simp only [registerInstr, State.mapCpu_withD hf, State.charge_withD]

theorem branchInstr_ignoresD {cond : Status → Bool} (hc : ∀ (c : Cpu) (d : Bool), cond (c.withD d).p = cond c.p)
    (disp : Byte) (cost : Cost) : State.IgnoresD (branchInstr cond disp cost) := by
  intro s d
  simp only [branchInstr, State.withD_cpu, hc]
  split <;> rfl

theorem shStore_ignoresD {before : Cpu → Cpu} (hb : Cpu.IgnoresD before) {val : Byte → Cpu → Byte}
    (hv : ∀ h c d, val h (c.withD d) = val h c) (p : Place) (cost : Cost) :
    State.IgnoresD (shStore before val p cost) := by
  intro s d
  simp only [shStore, locate_withD, State.mapCpu_withD hb, State.withD_cpu, hv, cpuWrite_withD, dmaStall_withD,
    State.charge_withD]

/-! The same by operand. -/

theorem readBy_ignoresD {f : Byte → Cpu → Cpu} (hf : ∀ m, Cpu.IgnoresD (f m)) (o : Operand) (cost : Cost) :
    State.IgnoresD (readBy f o cost) := by
  cases o with
  | imm m => exact readInstr_ignoresD hf _ _
  | mem p => exact readInstr_ignoresD hf _ _
  | _ => exact fun _ _ => rfl

theorem writeBy_ignoresD {val : Cpu → Byte} (hv : ∀ c d, val (c.withD d) = val c) (o : Operand) (cost : Cost) :
    State.IgnoresD (writeBy val o cost) := by
  cases o with
  | mem p => exact writeInstr_ignoresD hv _ _
  | _ => exact fun _ _ => rfl

theorem modifyBy_ignoresD {f : Byte → Cpu → Modified} (hf : Modified.IgnoresD f) (o : Operand) (cost : Cost) :
    State.IgnoresD (modifyBy f o cost) := by
  cases o with
  | mem p => exact modifyInstr_ignoresD hf _ _
  | acc => exact modifyAcc_ignoresD hf _
  | _ => exact fun _ _ => rfl

theorem highBy_ignoresD {before : Cpu → Cpu} (hb : Cpu.IgnoresD before) {val : Byte → Cpu → Byte}
    (hv : ∀ h c d, val h (c.withD d) = val h c) (o : Operand) (cost : Cost) :
    State.IgnoresD (highBy before val o cost) := by
  cases o with
  | mem p => exact shStore_ignoresD hb hv _ _
  | _ => exact fun _ _ => rfl

theorem branchBy_ignoresD {cond : Status → Bool} (hc : ∀ (c : Cpu) (d : Bool), cond (c.withD d).p = cond c.p)
    (o : Operand) (cost : Cost) : State.IgnoresD (branchBy cond o cost) := by
  cases o with
  | rel disp => exact branchInstr_ignoresD hc _ _
  | _ => exact fun _ _ => rfl

theorem nopBy_ignoresD (o : Operand) (cost : Cost) : State.IgnoresD (nopBy o cost) := by
  cases o with
  | imm m => exact readInstr_ignoresD (fun _ _ _ => rfl) _ _
  | mem p => exact readInstr_ignoresD (fun _ _ _ => rfl) _ _
  | _ => exact registerInstr_ignoresD (fun _ _ => rfl) _

theorem jumpBy_ignoresD (mn : Mnemonic) (o : Operand) (cost : Cost) : State.IgnoresD (jumpBy mn o cost) := by
  intro s d
  have hpc : (s.withD d).cpu.pc = s.cpu.pc := rfl
  unfold jumpBy
  split
  · simp only [push16, hpc, push_withD, State.setPc_withD, State.charge_withD]
  · rfl
  · simp only [readIndirect_withD, State.setPc_withD, State.charge_withD]
  · rfl

/-- What a mnemonic does ignores D, unless it pushes, loads or writes D. -/
theorem semantics_ignoresD {mn : Mnemonic} (h : mn ∉ [Mnemonic.php, .brk, .plp, .rti, .cld, .sed]) (o : Operand)
    (cost : Cost) : State.IgnoresD (semantics mn o cost) := by
  cases mn with
  | php | brk | plp | rti | cld | sed => simp at h
  | lda | ldx | ldy | adc | sbc | and | ora | eor | cmp | cpx | cpy | bit | lax | las | anc | alr | arr | sbx | ane | lxa =>
    exact readBy_ignoresD (fun _ _ _ => rfl) o cost
  | sta | stx | sty | sax => exact writeBy_ignoresD (fun _ _ => rfl) o cost
  | asl | lsr | rol | ror | inc | dec | slo | rla | sre | rra | dcp | isc =>
    exact modifyBy_ignoresD (fun _ _ _ => rfl) o cost
  | tax | tay | txa | tya | tsx | txs | inx | iny | dex | dey | jam | clc | sec | cli | sei | clv =>
    exact registerInstr_ignoresD (fun _ _ => rfl) cost
  | bcc | bcs | beq | bne | bmi | bpl | bvc | bvs => exact branchBy_ignoresD (fun _ _ => rfl) o cost
  | sha | shx | shy | tas => exact highBy_ignoresD (fun _ _ => rfl) (fun _ _ _ => rfl) o cost
  | nop => exact nopBy_ignoresD o cost
  | jmp | jsr => exact jumpBy_ignoresD _ o cost
  | pha => exact fun s d => congrArg (State.charge · cost.base) (push_withD s.cpu.a s d)
  | pla =>
    intro s d
    simp only [semantics, pull_withD]
    rfl
  | rts =>
    intro s d
    simp only [semantics, pull16_withD, State.setPc_withD, State.charge_withD]

/-- Settles O30: an instruction does what its mnemonic does, and that ignores D. -/
theorem decimalFlagHasNoEffect : Obligations.DecimalFlagHasNoEffect := by
  intro i s d h
  obtain ⟨j, hj, hmn, -, he⟩ := exec_admitted i
  refine ⟨semantics j.mnemonic j.operand (rowCost j) s, ?_, ?_⟩
  · rw [he, exec_eq j hj]
  · rw [he, exec_eq j hj, ← State.withD_eq_setP, ← State.withD_eq_setP, semantics_ignoresD (hmn ▸ h)]

end Sys2Proof.Machine
end

section
/-! The CPU bus by address (20_memory.md R101 to R114): two addresses of one region are one address to the bus, the
undriven addresses answer 0 and take no write, and a register read changes four fields of the PPU at most. -/

namespace Sys2Proof.Machine

/-! The folds (R102, R103). -/

/-- Outside the cartridge window a read depends on the address through its region alone. -/
theorem cpuRead_of_region_eq {a b : Word} (h : region a = region b) (hc : region a ≠ .cart) (s : State) :
    cpuRead a s = cpuRead b s := by
  unfold cpuRead
  rw [← h]
  cases ha : region a with
  | cart => exact absurd ha hc
  | _ => rfl

/-- Outside the cartridge window a write depends on the address through its region alone. -/
theorem cpuWrite_of_region_eq {a b : Word} (h : region a = region b) (hc : region a ≠ .cart) (v : Byte) (s : State) :
    cpuWrite a v s = cpuWrite b v s := by
  unfold cpuWrite
  rw [← h]
  cases ha : region a with
  | cart => exact absurd ha hc
  | _ => rfl

/-- A write of a PPU register acts on the PPU and, through PPUDATA, on the cartridge (R103). -/
theorem cpuWrite_ppu {a : Word} (h1 : 0x2000 ≤ a) (h2 : a < 0x4000) (v : Byte) (s : State) :
    cpuWrite a v s =
      { s with
        ppu := (s.ppu.regWrite s.cart (a.setWidth 3) v).1
        cart := (s.ppu.regWrite s.cart (a.setWidth 3) v).2 } := by
  simp [cpuWrite, region_ppu h1 h2]

theorem setWidth_three_eq (a : Word) : a.setWidth 3 = BitVec.ofNat 3 (a.toNat % 8) :=
  BitVec.eq_of_toNat_eq (by simp)

/-- An address of internal RAM and its fold into 0x0000-0x07FF are one region. -/
theorem region_ramFold {a : Word} (h : a < 0x2000) : region a = region (BitVec.ofNat 16 (a.toNat % 0x800)) := by
  have hk : (BitVec.ofNat 16 (a.toNat % 0x800)).toNat = a.toNat % 0x800 := Nat.mod_eq_of_lt (by omega)
  have hb : BitVec.ofNat 16 (a.toNat % 0x800) < 0x2000 := by
    change BitVec.toNat _ < 0x2000
    omega
  rw [region_ram h, region_ram hb, hk, Nat.mod_mod]

/-- An address of the register window and its fold into 0x2000-0x2007 are one region. -/
theorem region_ppuFold {a : Word} (h1 : 0x2000 ≤ a) (h2 : a < 0x4000) :
    region a = region (BitVec.ofNat 16 (0x2000 + a.toNat % 8)) := by
  have hk : (BitVec.ofNat 16 (0x2000 + a.toNat % 8)).toNat = 0x2000 + a.toNat % 8 := Nat.mod_eq_of_lt (by omega)
  have hb1 : 0x2000 ≤ BitVec.ofNat 16 (0x2000 + a.toNat % 8) := by
    change 0x2000 ≤ BitVec.toNat _
    omega
  have hb2 : BitVec.ofNat 16 (0x2000 + a.toNat % 8) < 0x4000 := by
    change BitVec.toNat _ < 0x4000
    omega
  rw [region_ppu h1 h2, region_ppu hb1 hb2, setWidth_three_eq, setWidth_three_eq, hk]
  congr 2
  omega

/-- A RAM write is seen at the addresses that agree with it modulo 0x0800, and nowhere else in RAM (R102). -/
theorem peek_cpuWrite_ram {a b : Word} {s : State} (hs : s.ram.wf = true) (ha : a < 0x2000) (hb : b < 0x2000)
    (v : Byte) : peek (cpuWrite a v s) b = if a.toNat % 0x800 = b.toNat % 0x800 then v else peek s b := by
  simp only [peek, cpuRead_ram hb, cpuWrite_ram ha, Memory.read_write hs]

/-- Settles O31: the fold of an address is in the address's region. -/
theorem ramAndPpuWindowAreMirrored : Obligations.RamAndPpuWindowAreMirrored := by
  refine ⟨fun a s ha => ⟨?_, ?_⟩, fun a b v s hs ha hb => peek_cpuWrite_ram hs ha hb v, fun a v s h1 h2 => ?_⟩
  · exact cpuRead_of_region_eq (region_ramFold ha) (by simp [region_ram ha]) s
  · rw [cpuRead_ram ha]
  · have hr := region_ppuFold h1 h2
    have hc : region a ≠ .cart := by simp [region_ppu h1 h2]
    refine ⟨cpuRead_of_region_eq hr hc s, cpuWrite_of_region_eq hr hc v s, ?_, ?_⟩
    · rw [cpuRead_ppu h1 h2, setWidth_three_eq]; rfl
    · rw [cpuWrite_ppu h1 h2, setWidth_three_eq]

/-! The addresses no device drives (R104, R108). -/

/-- A write to the APU window, 0x4017 included, does nothing (R104). -/
theorem cpuWrite_apu {a : Word} (h1 : 0x4000 ≤ a) (h2 : a < 0x4020) (h3 : a ≠ 0x4014) (h4 : a ≠ 0x4016) (v : Byte)
    (s : State) : cpuWrite a v s = s := by
  by_cases h5 : a = 0x4017
  · subst h5; rfl
  · simp [cpuWrite, region_apu h1 h2 h3 h4 h5]

/-- Below 0x6000 the cartridge drives nothing (51_cartridge.md R566). -/
theorem Cart.cpuRead_open {a : Word} (h : a < 0x6000) (c : Cart) : c.cpuRead a = 0x00 := by
  rw [Cart.cpuRead, if_pos h]

theorem Cart.cpuWrite_open {a : Word} (h : a < 0x6000) (c : Cart) (v : Byte) : c.cpuWrite a v = c := by
  rw [Cart.cpuWrite, if_pos h]

/-- Settles O32: below 0x4020 the address is in the APU window, from there on it is the cartridge's open bus. -/
theorem undrivenAddresses : Obligations.UndrivenAddresses := by
  refine ⟨fun a s h1 h2 h3 h4 => ?_, fun a v s h1 h2 h3 h4 => ?_, fun v s => rfl⟩
  · rcases Nat.lt_or_ge a.toNat 0x4020 with h | h
    · exact cpuRead_apu h1 h (fun ha => h3 (ha ▸ rfl)) (fun ha => h4 (ha ▸ rfl)) s
    · rw [cpuRead_cart h, Cart.cpuRead_open h2]
  · rcases Nat.lt_or_ge a.toNat 0x4020 with h | h
    · exact cpuWrite_apu h1 h (fun ha => h3 (ha ▸ rfl)) (fun ha => h4 (ha ▸ rfl)) v s
    · rw [cpuWrite_cart h, Cart.cpuWrite_open h2]

/-! Read side effects (R114). -/

/-- A register read changes VBlank, the toggle, `v` and the read buffer at most. -/
theorem Ppu.regRead_kept (p : Ppu) (c : Cart) (r : BitVec 3) :
    ∃ vb w v buf, (p.regRead c r).2 = { p with vblank := vb, w := w, v := v, readBuffer := buf } := by
  unfold Ppu.regRead Ppu.readStatus Ppu.readOamData Ppu.readData
  split
  · exact ⟨false, false, p.v, p.readBuffer, rfl⟩
  · split
    · exact ⟨p.vblank, p.w, p.v, p.readBuffer, rfl⟩
    · split
      · dsimp only
        split <;> exact ⟨p.vblank, p.w, _, _, rfl⟩
      · exact ⟨p.vblank, p.w, p.v, p.readBuffer, rfl⟩

/-- A read of a register other than PPUSTATUS and PPUDATA changes nothing. -/
theorem Ppu.regRead_unchanged {r : BitVec 3} (h2 : r ≠ 2) (h7 : r ≠ 7) (p : Ppu) (c : Cart) :
    (p.regRead c r).2 = p := by
  rw [Ppu.regRead, if_neg h2, if_neg h7]
  split <;> rfl

/-- Of the PPU, a bus read changes VBlank, the toggle, `v` and the read buffer at most. -/
theorem cpuRead_ppu_kept (a : Word) (s : State) :
    ∃ vb w v buf, (cpuRead a s).2.ppu = { s.ppu with vblank := vb, w := w, v := v, readBuffer := buf } := by
  unfold cpuRead
  cases region a with
  | ppuReg r => exact s.ppu.regRead_kept s.cart r
  | _ => exact ⟨s.ppu.vblank, s.ppu.w, s.ppu.v, s.ppu.readBuffer, rfl⟩

/-- A read away from PPUSTATUS, PPUDATA and the controller ports changes nothing. -/
theorem cpuRead_unchanged {a : Word}
    (hr : 0x2000 ≤ a.toNat → a.toNat < 0x4000 → a.toNat % 8 ≠ 2 ∧ a.toNat % 8 ≠ 7) (h1 : a.toNat ≠ 0x4016)
    (h2 : a.toNat ≠ 0x4017) (s : State) : (cpuRead a s).2 = s := by
  rcases Nat.lt_or_ge a.toNat 0x2000 with h | hlo
  · rw [cpuRead_ram h]
  rcases Nat.lt_or_ge a.toNat 0x4000 with hhi | h
  · obtain ⟨hne2, hne7⟩ := hr hlo hhi
    have hw : (a.setWidth 3).toNat = a.toNat % 8 := BitVec.toNat_setWidth ..
    rw [cpuRead_ppu hlo hhi, Ppu.regRead_unchanged (fun h => hne2 (by rw [← hw, h]; rfl))
      (fun h => hne7 (by rw [← hw, h]; rfl))]
    rfl
  rcases Nat.lt_or_ge a.toNat 0x4020 with h' | h'
  · rw [cpuRead_apu h h' (fun ha => h1 (ha ▸ rfl)) (fun ha => h2 (ha ▸ rfl))]
  · rw [cpuRead_cart h']

/-- Settles O33: the four PPU fields a read may change are none of those the statement lists. -/
theorem readsWithoutSideEffects : Obligations.ReadsWithoutSideEffects := by
  refine ⟨fun a s hr h1 h2 => cpuRead_unchanged hr h1 h2 s, fun a s => ?_⟩
  obtain ⟨vb, w, v, buf, h⟩ := cpuRead_ppu_kept a s
  simp [h]

end Sys2Proof.Machine
end

section
/-! OAM DMA (20_memory.md R140): the copy as a fold over the byte numbers 0 to 255, and what OAM holds after a copy of
a page that no device window meets. -/

namespace Sys2Proof.Machine

/-! The copy as a fold. -/

/-- One copy: byte `k` of the page goes to OAM at `base + k`. -/
def dmaStep (page base : Byte) (u : State) (k : Nat) : State :=
  let r := cpuRead (BitVec.ofNat 16 (256 * page.toNat + k)) u
  { r.2 with ppu := r.2.ppu.oamStore (base + BitVec.ofNat 8 k) r.1 }

theorem word_ofNat {k : Nat} (hk : k < 256) (page : Byte) :
    word page (BitVec.ofNat 8 k) = BitVec.ofNat 16 (256 * page.toNat + k) := by
  have := page.isLt
  apply BitVec.eq_of_toNat_eq
  simp only [word_toNat, BitVec.toNat_ofNat]
  omega

@[simp] theorem cpuRead_oamAddr (a : Word) (s : State) : (cpuRead a s).2.ppu.oamAddr = s.ppu.oamAddr := by
  obtain ⟨vb, w, v, buf, h⟩ := cpuRead_ppu_kept a s
  rw [h]

@[simp] theorem dmaStep_oamAddr (page base : Byte) (u : State) (k : Nat) :
    (dmaStep page base u k).ppu.oamAddr = u.ppu.oamAddr := by
  simp [dmaStep]

/-- The last `n` copies are those of the byte numbers from `256 - n` on, the OAM address being the one at the start. -/
theorem dmaCopy_eq_foldl (page : Byte) {n : Nat} (hn : n ≤ 256) (s : State) :
    dmaCopy page n s = (List.range' (256 - n) n).foldl (dmaStep page s.ppu.oamAddr) s := by
  induction n generalizing s with
  | zero => rfl
  | succ n ih =>
    have hk : 256 - (n + 1) = 255 - n := by omega
    have hk' : 255 - n + 1 = 256 - n := by omega
    have hstep : dmaCopy page (n + 1) s = dmaCopy page n (dmaStep page s.ppu.oamAddr s (255 - n)) := by
      rw [dmaCopy, word_ofNat (by omega)]
      simp [dmaStep, State.setPpu]
    rw [hstep, ih (by omega), dmaStep_oamAddr, List.range'_succ, hk, hk', List.foldl_cons]

/-- OAM DMA is the 256 copies in order (R140). -/
theorem oamDma_eq_foldl (page : Byte) (s : State) :
    oamDma page s = (List.range 256).foldl (dmaStep page s.ppu.oamAddr) s := by
  rw [oamDma, dmaCopy_eq_foldl page (le_refl 256), List.range_eq_range']

theorem dmaFold_oamAddr (page base : Byte) (ks : List Nat) (s : State) :
    (ks.foldl (dmaStep page base) s).ppu.oamAddr = s.ppu.oamAddr := by
  induction ks generalizing s with
  | nil => rfl
  | cons k ks ih => rw [List.foldl_cons, ih, dmaStep_oamAddr]

/-! What OAM holds. -/

/-- The state with its OAM replaced. -/
def State.setOam (s : State) (oam : Memory 8) : State := { s with ppu := { s.ppu with oam := oam } }

/-- Outside the device windows a read neither looks at OAM nor changes anything. -/
theorem cpuRead_setOam {a : Word} (h : a < 0x2000 ∨ 0x4020 ≤ a) (s : State) (oam : Memory 8) :
    cpuRead a (s.setOam oam) = (peek s a, s.setOam oam) := by
  unfold peek
  rcases h with h | h
  · rw [cpuRead_ram h, cpuRead_ram h]; rfl
  · rw [cpuRead_cart h, cpuRead_cart h]; rfl

/-- What OAM keeps of a byte stored at `j`: byte 2 of a sprite loses its three unimplemented bits (50_ppu.md R465). -/
def oamKept (j : Nat) (b : Byte) : Byte := if j % 4 = 2 then b &&& 0xE3 else b

theorem Ppu.oamStore_eq (p : Ppu) (i b : Byte) :
    p.oamStore i b = { p with oam := p.oam.write i.toNat (oamKept i.toNat b) } := by
  have h : (i &&& 3 = 2) ↔ i.toNat % 4 = 2 := by
    rw [← BitVec.toNat_inj, BitVec.toNat_and]
    change i.toNat &&& (2 ^ 2 - 1) = 2 ↔ _
    rw [Nat.and_two_pow_sub_one_eq_mod]
  simp only [Ppu.oamStore, oamKept, h]

/-- One copy from an address outside the device windows writes one OAM byte and does nothing else. -/
theorem dmaStep_setOam {page : Byte} (hp : page.toNat < 0x20 ∨ 0x41 ≤ page.toNat) {k : Nat} (hk : k < 256)
    (base : Byte) (s : State) (oam : Memory 8) :
    dmaStep page base (s.setOam oam) k =
      s.setOam
        (oam.write ((base.toNat + k) % 256)
          (oamKept ((base.toNat + k) % 256) (peek s (BitVec.ofNat 16 (256 * page.toNat + k))))) := by
  have hpage := page.isLt
  have ha : (BitVec.ofNat 16 (256 * page.toNat + k)).toNat = 256 * page.toNat + k := Nat.mod_eq_of_lt (by omega)
  have hout :
      BitVec.ofNat 16 (256 * page.toNat + k) < 0x2000 ∨ 0x4020 ≤ BitVec.ofNat 16 (256 * page.toNat + k) := by
    change BitVec.toNat _ < 0x2000 ∨ 0x4020 ≤ BitVec.toNat _
    omega
  have hi : (base + BitVec.ofNat 8 k).toNat = (base.toNat + k) % 256 := by simp [BitVec.toNat_add]
  simp only [dmaStep, cpuRead_setOam hout, Ppu.oamStore_eq, hi]
  rfl

/-- THE INDUCTION: after the first `n` copies OAM is canonical, holds the first `n` bytes of the page from the OAM
address on, and nothing else has changed. -/
theorem dmaFold_reads {page : Byte} (hp : page.toNat < 0x20 ∨ 0x41 ≤ page.toNat) (base : Byte) {s : State}
    (hs : s.ppu.oam.wf = true) {n : Nat} (hn : n ≤ 256) :
    ∃ oam : Memory 8, (List.range n).foldl (dmaStep page base) s = s.setOam oam ∧ oam.wf = true ∧
      ∀ k < n, oam.read ((base.toNat + k) % 256) =
        oamKept ((base.toNat + k) % 256) (peek s (BitVec.ofNat 16 (256 * page.toNat + k))) := by
  induction n with
  | zero => exact ⟨s.ppu.oam, rfl, hs, fun k hk => absurd hk (Nat.not_lt_zero k)⟩
  | succ n ih =>
    obtain ⟨oam, hfold, hwf, hread⟩ := ih (by omega)
    have hnext : (List.range (n + 1)).foldl (dmaStep page base) s = dmaStep page base (s.setOam oam) n := by
      rw [List.range_succ, List.foldl_append, hfold]
      rfl
    refine ⟨_, hnext.trans (dmaStep_setOam hp hn base s oam), Memory.wf_write hwf _ _, fun k hk => ?_⟩
    rcases Nat.lt_succ_iff_lt_or_eq.mp hk with hlt | rfl
    · rw [Memory.read_write_other hwf (by omega), hread k hlt]
    · rw [Memory.read_write_same hwf]

/-- Settles O35: the copy is the fold, and the fold's OAM is the page. -/
theorem oamDmaCopiesPage : Obligations.OamDmaCopiesPage := by
  have hdma : ∀ (v : Byte) (s : State),
      cpuWrite 0x4014 v s = (List.range 256).foldl (dmaStep v s.ppu.oamAddr) s := oamDma_eq_foldl
  refine ⟨fun v s => ⟨hdma v s, ?_⟩, fun v s hs hv => ?_⟩
  · rw [hdma, dmaFold_oamAddr]
  · obtain ⟨oam, hfold, -, hread⟩ := dmaFold_reads hv s.ppu.oamAddr hs (le_refl 256)
    exact ⟨oam, (hdma v s).trans hfold, hread⟩

end Sys2Proof.Machine
end

section
/-! The PPU address space by number (20_memory.md R120 to R124): which cell an address reaches in each of its three
ranges, and what a read and a write do there. -/

namespace Sys2Proof.Machine

/-! The pattern tables (R121). -/

theorem Cart.ppuRead_banked {c : Cart} (h : c.mapper = .cnrom) (k : Nat) :
    c.ppuRead k = c.chr.read (8192 * (c.chrBank.toNat % c.chrBanks) + k) := by
  rw [Cart.ppuRead, h, Cart.chrBanked]

theorem Cart.ppuRead_flat {c : Cart} (h : c.mapper ≠ .cnrom) (k : Nat) : c.ppuRead k = c.chr.read k := by
  unfold Cart.ppuRead
  cases hm : c.mapper with
  | cnrom => exact absurd hm h
  | _ => rfl

theorem Cart.ppuWrite_ram {c : Cart} (h : c.chrIsRam = true) (k : Nat) (v : Byte) :
    c.ppuWrite k v = { c with chr := c.chr.write (8192 * (c.chrBank.toNat % c.chrBanks) + k) v } := by
  rw [Cart.ppuWrite, if_pos h, Cart.chrBanked]

theorem Cart.ppuWrite_rom {c : Cart} (h : c.chrIsRam = false) (k : Nat) (v : Byte) : c.ppuWrite k v = c := by
  simp [Cart.ppuWrite, h]

/-! The nametables (R122, R123). -/

/-- Where the arrangement puts byte `i` of logical nametable `n` within the memory that holds it. -/
def ntIndex (m : Mirroring) (n i : Nat) : Nat :=
  match m with
  | .horizontal => 0x400 * (n / 2) + i
  | .vertical => 0x400 * (n % 2) + i
  | .fourScreen => 0x400 * (n % 2) + i

theorem twoBits_cases (n : BitVec 2) : n = 0 ∨ n = 1 ∨ n = 2 ∨ n = 3 := by
  revert n
  decide

/-- The cartridge holds the last two nametables of the four-screen arrangement, the PPU all others (R123). -/
theorem ntCell_eq (m : Mirroring) (n : BitVec 2) (i : BitVec 10) :
    ntCell m n i =
      if m = .fourScreen ∧ 2 ≤ n.toNat then .fsVram (ntIndex m n.toNat i.toNat)
      else .ciram (ntIndex m n.toNat i.toNat) := by
  rcases twoBits_cases n with rfl | rfl | rfl | rfl <;> cases m <;> simp [ntCell, ntIndex, bit]

theorem field_toNat {w : Nat} (v : BitVec w) (lo len : Nat) : (field v lo len).toNat = v.toNat / 2 ^ lo % 2 ^ len := by
  simp [field, BitVec.extractLsb'_toNat, Nat.shiftRight_eq_div_pow]

/-- The nametable cell of an address by its offset in the nametable space (R120, R122). -/
theorem ppuRegion_nametable {a : BitVec 14} (h1 : 0x2000 ≤ a) (h2 : a < 0x3F00) (m : Mirroring) :
    ppuRegion m a =
      let o := (a.toNat - 0x2000) % 0x1000
      let k := ntIndex m (o / 0x400) (o % 0x400)
      .nametable (if m = .fourScreen ∧ 2 ≤ o / 0x400 then .fsVram k else .ciram k) := by
  have h1' : 0x2000 ≤ a.toNat := h1
  have hn : (field a 10 2).toNat = (a.toNat - 0x2000) % 0x1000 / 0x400 := by rw [field_toNat]; omega
  have hi : (field a 0 10).toNat = (a.toNat - 0x2000) % 0x1000 % 0x400 := by rw [field_toNat]; omega
  rw [ppuRegion, if_neg (by bv_omega), if_pos h2, ntCell_eq, hn, hi]

theorem ppuRegion_pattern {a : BitVec 14} (h : a < 0x2000) (m : Mirroring) : ppuRegion m a = .pattern a.toNat := by
  rw [ppuRegion, if_pos h]

theorem ppuRegion_palette {a : BitVec 14} (h : 0x3F00 ≤ a) (m : Mirroring) :
    ppuRegion m a = .palette (paletteIndex a) := by
  rw [ppuRegion, if_neg (by bv_omega), if_neg (by bv_omega)]

/-! The accesses. -/

/-- An access of the pattern tables is the cartridge's (R121). -/
theorem Ppu.bus_pattern {a : BitVec 14} (h : a < 0x2000) (p : Ppu) (c : Cart) (v : Byte) :
    p.busRead c a = c.ppuRead a.toNat ∧ p.busWrite c a v = (p, c.ppuWrite a.toNat v) := by
  rw [Ppu.busRead, Ppu.busWrite, ppuRegion_pattern h]
  exact ⟨rfl, rfl⟩

/-- An access of a nametable cell in the PPU's own memory (R122). -/
theorem Ppu.bus_ciram {a : BitVec 14} {c : Cart} {k : Nat} (h : ppuRegion c.mirroring a = .nametable (.ciram k))
    (p : Ppu) (v : Byte) :
    p.busRead c a = p.ciram.read k ∧ p.busWrite c a v = ({ p with ciram := p.ciram.write k v }, c) := by
  rw [Ppu.busRead, Ppu.busWrite, h]
  exact ⟨rfl, rfl⟩

/-- An access of a nametable cell in the cartridge's memory (R123). -/
theorem Ppu.bus_fsVram {a : BitVec 14} {c : Cart} {k : Nat} (h : ppuRegion c.mirroring a = .nametable (.fsVram k))
    (p : Ppu) (v : Byte) :
    p.busRead c a = c.fsVram.read k ∧ p.busWrite c a v = (p, { c with fsVram := c.fsVram.write k v }) := by
  rw [Ppu.busRead, Ppu.busWrite, h]
  exact ⟨rfl, rfl⟩

/-- An access of the palette keeps six bits (R124). -/
theorem Ppu.bus_palette {a : BitVec 14} (h : 0x3F00 ≤ a) (p : Ppu) (c : Cart) (v : Byte) :
    p.busRead c a = (p.palette.read (paletteIndex a)).setWidth 8 ∧
      p.busWrite c a v = ({ p with palette := p.palette.write (paletteIndex a) (v.setWidth 6) }, c) := by
  rw [Ppu.busRead, Ppu.busWrite, ppuRegion_palette h]
  exact ⟨rfl, rfl⟩

theorem setWidth_six_eq (v : Byte) : v.setWidth 6 = BitVec.ofNat 6 (v.toNat % 64) :=
  BitVec.eq_of_toNat_eq (by simp)

/-- A palette cell as a byte is the same number. -/
theorem setWidth_eight_toNat (v : BitVec 6) : (v.setWidth 8).toNat = v.toNat :=
  BitVec.toNat_setWidth_of_le (by decide)

/-- Settles O36: one range of the address space after the other. -/
theorem ppuAddressSpace : Obligations.PpuAddressSpace := by
  refine ⟨fun p c a v ha => ?_, fun p c a v h1 h2 => ?_, fun p c a v ha => ?_⟩
  · obtain ⟨hr, hw⟩ := Ppu.bus_pattern ha p c v
    rw [hr, hw]
    exact ⟨fun h => Cart.ppuRead_banked h _, fun h => Cart.ppuRead_flat h _,
      fun h => by rw [Cart.ppuWrite_ram h], fun h => by rw [Cart.ppuWrite_rom h]⟩
  · have hreg := ppuRegion_nametable h1 h2 c.mirroring
    change if c.mirroring = .fourScreen ∧ 2 ≤ (a.toNat - 0x2000) % 0x1000 / 0x400 then _ else _
    split
    · next h =>
      simp only [if_pos h] at hreg
      exact Ppu.bus_fsVram hreg p v
    · next h =>
      simp only [if_neg h] at hreg
      exact Ppu.bus_ciram hreg p v
  · obtain ⟨hr, hw⟩ := Ppu.bus_palette ha p c v
    rw [hr, hw, setWidth_six_eq]
    exact ⟨setWidth_eight_toNat _, rfl⟩

end Sys2Proof.Machine
end

section
/-! The cycles of an instruction (30_encoding.md R169, R177, 20_memory.md R141): its row's base count, a page or branch
penalty, and the DMA stall of a store to 0x4014, one lemma per shape of instruction. -/

namespace Sys2Proof.Machine

/-! The counts of the rows (R177) and of the penalties. -/

/-- Every row has 2 to 8 cycles, its page penalty included. -/
theorem rowCost_range (i : Instr) : 2 ≤ (rowCost i).base ∧ (rowCost i).cycles true ≤ 8 := by
  have h : ∀ op : Byte, 2 ≤ baseCycles op ∧ baseCycles op + bitNat (pagePenalty op && true) ≤ 8 := by
    decide +kernel
  exact h i.opcode

/-- A branch's row has 2 cycles (45_control.md R321). -/
theorem rowCost_of_rel {i : Instr} {d : Byte} (h : i.operand = .rel d) : rowCost i = .fixed 2 := by
  cases i with
  | bpl | bmi | bvc | bvs | bcc | bcs | bne | beq =>
    simp only [rowCost, Instr.opcode, encode, bytes2, List.headD_cons]
    rfl
  | _ => cases h

/-- The page penalty is at most the one cycle of a page cross. -/
theorem Cost.cycles_between (cost : Cost) (crossed : Bool) :
    cost.base ≤ cost.cycles crossed ∧ cost.cycles crossed ≤ cost.cycles true := by
  cases crossed with
  | true => exact ⟨Nat.le_add_right _ _, le_refl _⟩
  | false => simp [Cost.cycles, bitNat]

theorem rowCost_cycles_range (i : Instr) (crossed : Bool) :
    2 ≤ (rowCost i).cycles crossed ∧ (rowCost i).cycles crossed ≤ 8 := by
  obtain ⟨h2, h8⟩ := rowCost_range i
  obtain ⟨hlo, hhi⟩ := (rowCost i).cycles_between crossed
  exact ⟨h2.trans hlo, hhi.trans h8⟩

theorem rowCost_base_range (i : Instr) : 2 ≤ (rowCost i).base ∧ (rowCost i).base ≤ 8 := by
  obtain ⟨h2, h8⟩ := rowCost_range i
  exact ⟨h2, ((rowCost i).cycles_between true).1.trans h8⟩

theorem bitNat_le_one (b : Bool) : bitNat b ≤ 1 := by
  cases b <;> decide

/-- The stall is at most 514 cycles (20_memory.md R141). -/
theorem stallCycles_le (ea : Word) (base cycles : Nat) : stallCycles ea base cycles ≤ 514 := by
  unfold stallCycles
  split <;> omega

/-- Only a store to 0x4014 has a stall. -/
theorem stallCycles_eq_zero {ea : Word} (h : ea ≠ 0x4014) (base cycles : Nat) : stallCycles ea base cycles = 0 :=
  if_neg fun he => h (BitVec.eq_of_toNat_eq he)

/-! The bounds. -/

/-- The cycle counter went up by 2 to 522 from `s` to `t`, and by at most 8 if `i` does not store to 0x4014. -/
def CyclesWithin (i : Instr) (s t : State) : Prop :=
  s.cpu.cycles + 2 ≤ t.cpu.cycles ∧ t.cpu.cycles ≤ s.cpu.cycles + 522 ∧
    (0x4014 ∉ storeAddrs i s → t.cpu.cycles ≤ s.cpu.cycles + 8)

variable {i : Instr} {s t : State}

/-- Without a stall. -/
theorem cyclesWithin_of_count {n : Nat} (hn : 2 ≤ n ∧ n ≤ 8) (ht : t.cpu.cycles = s.cpu.cycles + n) :
    CyclesWithin i s t :=
  ⟨by omega, by omega, fun _ => by omega⟩

/-- With the stall of a store. -/
theorem cyclesWithin_of_store {ea : Word} (hea : ea ∈ storeAddrs i s)
    (ht : t.cpu.cycles = s.cpu.cycles + ((rowCost i).base + stallCycles ea (rowCost i).base s.cpu.cycles)) :
    CyclesWithin i s t := by
  have hbase := rowCost_base_range i
  have hstall := stallCycles_le ea (rowCost i).base s.cpu.cycles
  refine ⟨by omega, by omega, fun hno => ?_⟩
  have hzero := stallCycles_eq_zero (fun he => hno (he ▸ hea)) (rowCost i).base s.cpu.cycles
  omega

/-- An instruction that takes its base count. -/
theorem cyclesWithin_of_base (ht : t.cpu.cycles = s.cpu.cycles + (rowCost i).base) : CyclesWithin i s t :=
  cyclesWithin_of_count (rowCost_base_range i) ht

/-! The stores of an instruction and the modes of its operand. -/

theorem ea_mem_storeAddrs {p : Place} (h : storesToEa.contains i.mnemonic = true) (ho : i.operand = .mem p) :
    (locate p s).1.ea ∈ storeAddrs i s := by
  simp only [storeAddrs, if_pos h, ho, operandAddrs, List.mem_singleton]

theorem operand_mode_of_all {q : Mode → Bool} (h : (modesOf i.mnemonic).all q = true) : q i.operand.mode = true :=
  List.all_eq_true.mp h _ (List.contains_iff_mem.mp (instr_mode_mem i))

/-- The operand of an instruction whose mnemonic takes the accumulator or memory. -/
theorem modified_operand (h : (modesOf i.mnemonic).all (fun m => !([Mode.imp, .imm, .ind, .rel].contains m)) = true) :
    i.operand = .acc ∨ ∃ p : Place, i.operand = .mem p := by
  have hm := operand_mode_of_all h
  cases ho : i.operand with
  | acc => exact .inl rfl
  | mem p => exact .inr ⟨p, rfl⟩
  | _ => simp [ho, Operand.mode] at hm

/-- The operand of a branch. -/
theorem relative_operand (h : (modesOf i.mnemonic).all (fun m => m == .rel) = true) :
    ∃ d : Byte, i.operand = .rel d := by
  have hm := operand_mode_of_all h
  cases ho : i.operand with
  | rel d => exact ⟨d, rfl⟩
  | mem p => cases p <;> simp [ho, Operand.mode, Place.mode] at hm
  | _ => simp [ho, Operand.mode] at hm

/-- The operand of a jump or a call. -/
theorem jump_operand (h : (modesOf i.mnemonic).all (fun m => m == .abs || m == .ind) = true) :
    (∃ a : Word, i.operand = .mem (.abs a)) ∨ ∃ p : Word, i.operand = .ind p := by
  have hm := operand_mode_of_all h
  cases ho : i.operand with
  | ind p => exact .inr ⟨p, rfl⟩
  | mem p =>
    cases p with
    | abs a => exact .inl ⟨a, rfl⟩
    | _ => simp [ho, Operand.mode, Place.mode] at hm
  | _ => simp [ho, Operand.mode] at hm

/-! The shapes of instruction (R175). -/

theorem readInstr_cyclesWithin {f : Byte → Cpu → Cpu} (hf : ∀ m c, (f m c).cycles = c.cycles) (src : Source) :
    CyclesWithin i s (readInstr f src (rowCost i) s) :=
  cyclesWithin_of_count (rowCost_cycles_range i (loadSource src s).crossed) (by simp [readInstr, hf])

theorem readBy_cyclesWithin {f : Byte → Cpu → Cpu} (hf : ∀ m c, (f m c).cycles = c.cycles)
    (h : (modesOf i.mnemonic).all (fun m => !([Mode.imp, .acc, .ind, .rel].contains m)) = true) :
    CyclesWithin i s (readBy f i.operand (rowCost i) s) := by
  obtain ⟨src, ho⟩ := source_operand i h
  rw [ho]
  cases src with
  | imm m => exact readInstr_cyclesWithin hf _
  | mem p => exact readInstr_cyclesWithin hf _

theorem writeBy_cyclesWithin {val : Cpu → Byte} (hst : storesToEa.contains i.mnemonic = true)
    (h : (modesOf i.mnemonic).all (fun m => !([Mode.imp, .acc, .imm, .ind, .rel].contains m)) = true) :
    CyclesWithin i s (writeBy val i.operand (rowCost i) s) := by
  obtain ⟨p, ho⟩ := memory_operand i h
  have hea := ea_mem_storeAddrs (s := s) hst ho
  rw [ho]
  exact cyclesWithin_of_store hea (by simp [writeBy, writeInstr, stallCycles_eq])

theorem modifyBy_cyclesWithin {f : Byte → Cpu → Modified} (hf : ∀ m c, (f m c).cpu.cycles = c.cycles)
    (hst : storesToEa.contains i.mnemonic = true)
    (h : (modesOf i.mnemonic).all (fun m => !([Mode.imp, .imm, .ind, .rel].contains m)) = true) :
    CyclesWithin i s (modifyBy f i.operand (rowCost i) s) := by
  rcases modified_operand h with ho | ⟨p, ho⟩
  · rw [ho]
    exact cyclesWithin_of_base (by simp [modifyBy, modifyAcc, hf])
  · have hea := ea_mem_storeAddrs (s := s) hst ho
    rw [ho]
    exact cyclesWithin_of_store hea (by simp [modifyBy, modifyInstr, stallCycles_eq, hf])

/-- A high-byte store: `v` is what it ANDs with the high byte (47_unofficial.md R414). -/
theorem highBy_cyclesWithin {before : Cpu → Cpu} {val : Byte → Cpu → Byte} {v : Byte}
    (hb : before s.cpu = { before s.cpu with cycles := s.cpu.cycles }) (hv : ∀ h, val h (before s.cpu) = v &&& h)
    (hst : storeAddrs i s = highStoreAddrs i.operand s v)
    (h : (modesOf i.mnemonic).all (fun m => !([Mode.imp, .acc, .imm, .ind, .rel].contains m)) = true) :
    CyclesWithin i s (highBy before val i.operand (rowCost i) s) := by
  obtain ⟨p, ho⟩ := memory_operand i h
  have hea : highStoreAddr p s v ∈ storeAddrs i s := by simp [hst, ho, highStoreAddrs]
  rw [ho]
  refine cyclesWithin_of_store hea ?_
  rw [highBy, shStore_eq i hb hv]
  exact Nat.add_assoc _ _ _

theorem registerInstr_cyclesWithin {f : Cpu → Cpu} (hf : ∀ c, (f c).cycles = c.cycles) :
    CyclesWithin i s (registerInstr f (rowCost i) s) :=
  cyclesWithin_of_base (by simp [registerInstr, hf])

/-- A taken branch adds one cycle, or two onto another page (45_control.md R321). -/
theorem branchBy_cyclesWithin {cond : Status → Bool} (h : (modesOf i.mnemonic).all (fun m => m == .rel) = true) :
    CyclesWithin i s (branchBy cond i.operand (rowCost i) s) := by
  obtain ⟨d, ho⟩ := relative_operand h
  have hpage := bitNat_le_one (branchTarget s.cpu.pc d).crossed
  rw [rowCost_of_rel ho, ho]
  simp only [branchBy, branchInstr, Cost.fixed]
  split
  · exact cyclesWithin_of_count ⟨by omega, by omega⟩ rfl
  · exact cyclesWithin_of_count ⟨by omega, by omega⟩ rfl

theorem nopBy_cyclesWithin : CyclesWithin i s (nopBy i.operand (rowCost i) s) := by
  unfold nopBy
  split
  · exact readInstr_cyclesWithin (fun _ _ => rfl) _
  · exact readInstr_cyclesWithin (fun _ _ => rfl) _
  · exact registerInstr_cyclesWithin fun _ => rfl

@[simp] theorem push_cycles (v : Byte) (s : State) : (push v s).cpu.cycles = s.cpu.cycles := by
  rw [push_eq]

@[simp] theorem pull_cycles (s : State) : (pull s).2.cpu.cycles = s.cpu.cycles := by
  rw [pull_eq]
  rfl

@[simp] theorem pull16_cycles (s : State) : (pull16 s).2.cpu.cycles = s.cpu.cycles := by
  simp [pull16]

theorem jumpBy_cyclesWithin {mn : Mnemonic}
    (h : (modesOf i.mnemonic).all (fun m => m == .abs || m == .ind) = true) :
    CyclesWithin i s (jumpBy mn i.operand (rowCost i) s) := by
  refine cyclesWithin_of_base ?_
  unfold jumpBy
  split
  · simp [push16]
  · rfl
  · simp [readIndirect]
  · next habs hind _ =>
    rcases jump_operand h with ⟨a, ho⟩ | ⟨p, ho⟩
    · exact (habs a ho).elim
    · exact (hind p ho).elim

/-! Every mnemonic. -/

theorem semantics_cyclesWithin (i : Instr) (s : State) :
    CyclesWithin i s (semantics i.mnemonic i.operand (rowCost i) s) := by
  cases hmn : i.mnemonic with
  | lda | ldx | ldy | adc | sbc | and | ora | eor | cmp | cpx | cpy | bit | lax | las | anc | alr | arr | sbx
  | ane | lxa =>
    exact readBy_cyclesWithin (fun _ _ => rfl) (by rw [hmn]; rfl)
  | sta | stx | sty | sax => exact writeBy_cyclesWithin (by rw [hmn]; rfl) (by rw [hmn]; rfl)
  | asl | lsr | rol | ror | inc | dec | slo | rla | sre | rra | dcp | isc =>
    exact modifyBy_cyclesWithin (fun _ _ => rfl) (by rw [hmn]; rfl) (by rw [hmn]; rfl)
  | tax | tay | txa | tya | tsx | txs | inx | iny | dex | dey | jam | clc | sec | cli | sei | clv | cld | sed =>
    exact registerInstr_cyclesWithin fun _ => rfl
  | bcc | bcs | beq | bne | bmi | bpl | bvc | bvs => exact branchBy_cyclesWithin (by rw [hmn]; rfl)
  | sha | tas =>
    exact highBy_cyclesWithin (v := s.cpu.a &&& s.cpu.x) rfl (fun _ => rfl) (by rw [storeAddrs, hmn]; rfl)
      (by rw [hmn]; rfl)
  | shx =>
    exact highBy_cyclesWithin (v := s.cpu.x) rfl (fun _ => rfl) (by rw [storeAddrs, hmn]; rfl)
      (by rw [hmn]; rfl)
  | shy =>
    exact highBy_cyclesWithin (v := s.cpu.y) rfl (fun _ => rfl) (by rw [storeAddrs, hmn]; rfl)
      (by rw [hmn]; rfl)
  | nop => exact nopBy_cyclesWithin
  | jmp | jsr => exact jumpBy_cyclesWithin (by rw [hmn]; rfl)
  | pha | php | pla | plp | rts => exact cyclesWithin_of_base (by simp [semantics])
  | rti => exact cyclesWithin_of_base (by rw [semantics, returnFromInterrupt_eq]; rfl)
  | brk => exact cyclesWithin_of_base (by rw [semantics, takeInterrupt_eq _ _ _ (by decide) (by decide)]; rfl)

/-- The addresses an instruction stores to are those of its mnemonic and operand. -/
theorem storeAddrs_congr {i j : Instr} (hmn : j.mnemonic = i.mnemonic) (ho : j.operand = i.operand) (s : State) :
    storeAddrs j s = storeAddrs i s := by
  unfold storeAddrs
  rw [hmn, ho]

/-- Settles O27: an instruction does what its mnemonic does, and that stays within the bounds. -/
theorem everyInstructionCompletes : Obligations.EveryInstructionCompletes := by
  intro i s
  obtain ⟨j, hj, hmn, ho, he⟩ := exec_admitted i
  refine ⟨semantics j.mnemonic j.operand (rowCost j) s, (he s).trans (exec_eq j hj s), ?_⟩
  rw [← storeAddrs_congr hmn ho]
  exact semantics_cyclesWithin j s

end Sys2Proof.Machine
end

section
/-! Decoding and encoding (30_encoding.md R150, R153, R170, R176, R177): the instruction that an opcode's entry of the
map makes of an operand, and the bytes it stands for. One walk over the 256 opcodes says that these bytes are the
instruction's encoding, one over the constructors that every well-formed instruction comes from its opcode's entry;
both round trips follow. -/

namespace Sys2Proof

/-! An entry of the map applied to an operand. -/

/-- The instruction a form makes of an operand byte `b` or an operand word `a`. -/
def Form.instr (b : Byte) (a : Word) : Form → Instr
  | .bare i => i
  | .byte f => f b
  | .addr f => f a

/-- The bytes of that instruction, under the opcode `op`. -/
def Form.bytes (op b : Byte) (a : Word) : Form → List Byte
  | .bare _ => [op]
  | .byte _ => bytes2 op b
  | .addr _ => bytes3 op a

/-- The number that instruction's operand bytes make. -/
def Form.value (b : Byte) (a : Word) : Form → Nat
  | .bare _ => 0
  | .byte _ => b.toNat
  | .addr _ => a.toNat

theorem Form.bytes_length (op b : Byte) (a : Word) (F : Form) : (F.bytes op b a).length = F.length := by
  cases F <;> rfl

theorem Form.bytes_head (op b : Byte) (a : Word) (F : Form) : ∃ operands, F.bytes op b a = op :: operands := by
  cases F <;> exact ⟨_, rfl⟩

/-- THE MAP AGAINST THE LIST (R176, R177): what an opcode's entry makes is well-formed, its encoding is the bytes it is
made from, and so is the number of its operand. -/
theorem formOf_instr (op b : Byte) (a : Word) :
    ((formOf op).instr b a).wellFormed = true ∧
      encode ((formOf op).instr b a) = (formOf op).bytes op b a ∧
      Machine.operandValue ((formOf op).instr b a).operand = (formOf op).value b a := by
  obtain ⟨n, hn, rfl⟩ : ∃ n < 256, BitVec.ofNat 8 n = op := ⟨op.toNat, op.isLt, BitVec.ofNat_toNat ..⟩
  interval_cases n <;> exact ⟨rfl, rfl, rfl⟩

/-! Decoding the bytes of an entry, and back. -/

theorem decode_bytes (op b : Byte) (a : Word) (rest : List Byte) :
    decode ((formOf op).bytes op b a ++ rest) = .ok ((formOf op).instr b a, rest) := by
  cases hF : formOf op with
  | bare i => simp [Form.bytes, Form.instr, decode, hF]
  | byte f => simp [Form.bytes, Form.instr, bytes2, decode, hF]
  | addr f => simp [Form.bytes, Form.instr, bytes3, decode, hF]

/-- DECODE, INVERTED: what decodes is what the entry of the first byte makes, and what is left follows its bytes. -/
theorem decode_eq_ok {bytes rest : List Byte} {i : Instr} (h : decode bytes = .ok (i, rest)) :
    ∃ (op b : Byte) (a : Word),
      bytes = (formOf op).bytes op b a ++ rest ∧ i = (formOf op).instr b a := by
  unfold decode at h
  split at h
  · cases h
  · next op operands =>
    split at h
    · next i' hF =>
      cases h
      exact ⟨op, 0, 0, by simp [hF, Form.bytes], by simp [hF, Form.instr]⟩
    · next f b rest' hF =>
      cases h
      exact ⟨op, b, 0, by simp [hF, Form.bytes, bytes2], by simp [hF, Form.instr]⟩
    · next f lo hi rest' hF =>
      cases h
      exact ⟨op, 0, word hi lo, by simp [hF, Form.bytes, bytes3], by simp [hF, Form.instr]⟩
    · cases h
    · cases h

/-- Whether a sequence decodes is a matter of its length alone (R170). -/
theorem decode_cons_length (op : Byte) (operands : List Byte) :
    if (formOf op).length ≤ operands.length + 1 then ∃ r, decode (op :: operands) = .ok r
    else decode (op :: operands) = .error (.operandMissing op) := by
  cases hF : formOf op with
  | bare i => simp [Form.length, decode, hF]
  | byte f =>
    rcases operands with _ | ⟨b, rest⟩
    · simp [Form.length, decode, hF]
    · simp [Form.length, decode, hF]
  | addr f =>
    rcases operands with _ | ⟨lo, _ | ⟨hi, rest⟩⟩
    · simp [Form.length, decode, hF]
    · simp [Form.length, decode, hF]
    · simp [Form.length, decode, hF]

/-! An instruction as its opcode's entry applied to its operand. -/

/-- The operand byte, 0 without one. -/
def Operand.byte : Operand → Byte
  | .imm b | .rel b | .mem (.zp b) | .mem (.zpX b) | .mem (.zpY b) | .mem (.izX b) | .mem (.izY b) => b
  | _ => 0

/-- The operand word, 0 without one. -/
def Operand.word : Operand → Word
  | .ind a | .mem (.abs a) | .mem (.absX a) | .mem (.absY a) => a
  | _ => 0

/-- THE LIST AGAINST THE MAP: a well-formed instruction is what the entry of its opcode makes of its operand. -/
theorem formOf_opcode {i : Instr} (h : i.wellFormed = true) :
    (formOf i.opcode).instr i.operand.byte i.operand.word = i := by
  cases i
  all_goals simp only [Instr.opcode, encode, bytes2, bytes3, List.headD_cons]
  case jam op | nopImp op | nopImm op b | nopZp op b | nopZpX op b | ancImm op b | nopAbsX op a =>
    have hop := of_decide_eq_true h
    fin_cases hop <;> rfl
  all_goals rfl

/-- So its encoding is the bytes of that entry. -/
theorem encode_eq_bytes {i : Instr} (h : i.wellFormed = true) :
    encode i = (formOf i.opcode).bytes i.opcode i.operand.byte i.operand.word := by
  obtain ⟨-, henc, -⟩ := formOf_instr i.opcode i.operand.byte i.operand.word
  rwa [formOf_opcode h] at henc

theorem encode_eq_cons {i : Instr} (h : i.wellFormed = true) : ∃ operands, encode i = i.opcode :: operands := by
  rw [encode_eq_bytes h]
  exact Form.bytes_head ..

theorem encode_length_eq_form {i : Instr} (h : i.wellFormed = true) : (encode i).length = (formOf i.opcode).length := by
  rw [encode_eq_bytes h, Form.bytes_length]

/-- Settles O1: decoding the bytes of the opcode's entry gives back what the entry makes, the instruction. -/
theorem decodeOfEncode : Obligations.DecodeOfEncode := by
  intro i rest h
  rw [encode_eq_bytes h, decode_bytes, formOf_opcode h]

/-- Settles O2: the bytes used are those of the first byte's entry, and these are an encoding. -/
theorem encodeOfDecode : Obligations.EncodeOfDecode := by
  refine ⟨fun bytes i rest h => ?_, rfl, decode_cons_length⟩
  obtain ⟨op, b, a, rfl, rfl⟩ := decode_eq_ok h
  obtain ⟨hwf, henc, -⟩ := formOf_instr op b a
  exact ⟨hwf, by rw [henc]⟩

/-- Settles O3: each word is decoded by its entry of the map. -/
theorem writtenOutWordsDecode : Obligations.WrittenOutWordsDecode :=
  ⟨rfl, rfl, rfl, rfl, rfl, rfl, rfl, rfl, rfl, rfl, rfl, rfl⟩

end Sys2Proof
end

section
/-! Fetching and stepping (30_encoding.md R151, R152, 53_synchronizer.md R632): the instruction fetched is the one the
fetched bytes decode to; outside the device windows the fetch reads memory and moves PC, and nothing else changes. -/

namespace Sys2Proof.Machine

/-- The instruction fetched, and the state after the fetch, are those of the bytes fetched. -/
theorem decode_fetchBytes (s : State) :
    decode (fetchBytes s).1 = .ok ((fetchInstr s).1, []) ∧ (fetchBytes s).2 = (fetchInstr s).2 := by
  unfold fetchBytes fetchInstr
  cases hF : formOf (fetchByte s).1 with
  | bare i => simp [fetchMany, Form.length, decode, hF]
  | byte f => simp [fetchMany, Form.length, decode, hF]
  | addr f => simp [fetchMany, Form.length, decode, hF]

/-- With nothing that comes before an instruction, the CPU action is `exec` of the one fetched. -/
theorem cpuAction_eq_exec {s : State} (hnmi : s.sync.nmiPending = false)
    (hirq : (s.cpu.irqLine && !s.cpu.p.i) = false) (hhalt : s.cpu.halted = false) :
    cpuAction s = exec (fetchInstr s).1 (fetchInstr s).2 := by
  simp [cpuAction, cpuStep, hnmi, hirq, hhalt]

/-- Settles O4: the opening drain does nothing, and the CPU action is `exec` of the instruction fetched. -/
theorem stepRunsFetchedInstruction : Obligations.StepRunsFetchedInstruction := by
  intro s hreset hdebt hnmi hirq hhalt
  obtain ⟨hdec, hstate⟩ := decode_fetchBytes s
  obtain ⟨hwf, -⟩ := encodeOfDecode.1 _ _ _ hdec
  obtain ⟨t, ht, -⟩ := everyInstructionCompletes (fetchInstr s).1 (fetchInstr s).2
  refine ⟨(fetchInstr s).1, (fetchInstr s).2, t, hdec, hwf, hstate, rfl, ht, ?_⟩
  simp [step, hreset, drain_nothing hdebt, cpuAction_eq_exec hnmi hirq hhalt, ht]

/-! Reads outside the device windows. -/

theorem outsideDevices_iff {a : Word} : outsideDevices a = true ↔ a < 0x2000 ∨ 0x4020 ≤ a := by
  simp [outsideDevices, BitVec.lt_def, BitVec.le_def]

/-- Outside the device windows a read changes nothing. -/
theorem cpuRead_outside {a : Word} (h : outsideDevices a = true) (s : State) : cpuRead a s = (peek s a, s) := by
  rcases outsideDevices_iff.mp h with h | h
  · rw [peek, cpuRead_ram h]
  · rw [peek, cpuRead_cart h]

/-- A read does not look at the CPU. -/
@[simp] theorem peek_setPc (s : State) (pc a : Word) : peek (s.setPc pc) a = peek s a := by
  change (cpuRead a (s.setCpu (s.setPc pc).cpu)).1 = _
  rw [cpuRead_setCpu, peek]

@[simp] theorem State.setPc_setPc (s : State) (pc pc' : Word) : (s.setPc pc).setPc pc' = s.setPc pc' := rfl

/-! The fetch of bytes that stand in memory. -/

/-- Reads of PC, PC + 1, … (modulo 65536), all outside the device windows, return these bytes. -/
def CodeAtPc (s : State) (bytes : List Byte) : Prop :=
  ∀ (k : Nat) (b : Byte), bytes[k]? = some b →
    outsideDevices (s.cpu.pc + BitVec.ofNat 16 k) = true ∧ peek s (s.cpu.pc + BitVec.ofNat 16 k) = b

theorem CodeAtPc.fetchByte_eq {s : State} {b : Byte} {rest : List Byte} (h : CodeAtPc s (b :: rest)) :
    fetchByte s = (b, s.setPc (s.cpu.pc + 1)) := by
  obtain ⟨hout, hb⟩ := h 0 b rfl
  rw [BitVec.add_zero] at hout hb
  rw [fetchByte, cpuRead_outside hout, hb]

/-- A byte further on the address is one more than from PC. -/
theorem add_one_add_ofNat (pc : Word) (k : Nat) : pc + 1 + BitVec.ofNat 16 k = pc + BitVec.ofNat 16 (k + 1) := by
  rw [BitVec.add_assoc, Nat.add_comm, BitVec.ofNat_add]
  rfl

theorem CodeAtPc.tail {s : State} {b : Byte} {rest : List Byte} (h : CodeAtPc s (b :: rest)) :
    CodeAtPc (s.setPc (s.cpu.pc + 1)) rest := by
  intro k b' hk
  rw [State.setPc_cpu_pc, add_one_add_ofNat, peek_setPc]
  exact h (k + 1) b' hk

/-- Fetching as many bytes as stand at PC gives these bytes and moves PC past them. -/
theorem CodeAtPc.fetchMany_eq {bytes : List Byte} {s : State} (h : CodeAtPc s bytes) :
    fetchMany bytes.length s = (bytes, s.setPc (s.cpu.pc + BitVec.ofNat 16 bytes.length)) := by
  induction bytes generalizing s with
  | nil => simp [fetchMany, State.setPc]
  | cons b rest ih =>
    simp only [List.length_cons, fetchMany, h.fetchByte_eq, ih h.tail, State.setPc_setPc, State.setPc_cpu_pc,
      add_one_add_ofNat]

/-- The fetch of an instruction is the fetch of as many bytes as its opcode calls for. -/
theorem fetchBytes_eq_fetchMany (s : State) : fetchBytes s = fetchMany (formOf (fetchByte s).1).length s := by
  obtain ⟨n, hn⟩ : ∃ n, (formOf (fetchByte s).1).length = n + 1 := by
    cases formOf (fetchByte s).1 <;> exact ⟨_, rfl⟩
  simp only [fetchBytes, hn, Nat.add_sub_cancel, fetchMany]

/-- An encoding is as long as its mode says (R150, R153). -/
theorem encode_length (i : Instr) : (encode i).length = i.operand.mode.length := by
  cases i <;> rfl

/-- When an encoding stands at PC, the opcode fetched is its own. -/
theorem CodeAtPc.fetchByte_opcode {i : Instr} {s : State} (hwf : i.wellFormed = true) (h : CodeAtPc s (encode i)) :
    (fetchByte s).1 = i.opcode := by
  obtain ⟨operands, hop⟩ := encode_eq_cons hwf
  rw [hop] at h
  rw [h.fetchByte_eq]

/-- Settles O5: the bytes fetched are the encoding, and it decodes to the instruction. -/
theorem fetchReadsMemoryAtPc : Obligations.FetchReadsMemoryAtPc := by
  intro i s hwf hcode
  replace hcode : CodeAtPc s (encode i) := hcode
  have hfetch : fetchBytes s = (encode i, s.setPc (s.cpu.pc + BitVec.ofNat 16 (encode i).length)) := by
    rw [fetchBytes_eq_fetchMany, hcode.fetchByte_opcode hwf, ← encode_length_eq_form hwf, hcode.fetchMany_eq]
  obtain ⟨hdec, hstate⟩ := decode_fetchBytes s
  have hi : decode (encode i) = .ok (i, []) := by simpa using decodeOfEncode i [] hwf
  rw [hfetch, hi] at hdec
  rw [hfetch, encode_length] at hstate
  obtain ⟨hinstr, -⟩ := Prod.mk.inj (Except.ok.inj hdec)
  exact Prod.ext hinstr.symm hstate.symm

end Sys2Proof.Machine
end

section
/-! Effective addresses by number (30_encoding.md R157 to R164), the modes that index by Y in the zero page, and the
operand of a decoded instruction as its bytes. -/

namespace Sys2Proof.Machine

/-- Two addresses have different high bytes when they lie on different pages. -/
theorem hiByte_bne (a b : Word) : (hiByte a != hiByte b) = decide (a.toNat / 256 ≠ b.toNat / 256) := by
  rw [bne, byte_eq_iff, hiByte_toNat, hiByte_toNat, decide_not]

/-- Indexing a 16-bit address wraps, and crosses a page when the high byte changes (R161, R162, R164). -/
theorem Located.indexed_spec (base : Word) (index : Byte) :
    (Located.indexed base index).base = base ∧
      (Located.indexed base index).ea.toNat = (base.toNat + index.toNat) % 65536 ∧
      (Located.indexed base index).crossed =
        decide (base.toNat / 256 ≠ (Located.indexed base index).ea.toNat / 256) := by
  have hindex := index.isLt
  refine ⟨rfl, ?_, hiByte_bne _ _⟩
  simp only [Located.indexed, BitVec.toNat_add, BitVec.toNat_setWidth]
  omega

/-- A zero-page sum wraps within the page (R158, R159). -/
theorem zeroPage_add_toNat (a index : Byte) : (zeroPage (a + index)).toNat = (a.toNat + index.toNat) % 256 := by
  rw [zeroPage_toNat, BitVec.toNat_add]

/-- A zero-page pointer by number: its high byte comes from the next address within the page (R163, R164). -/
theorem readPointer_toNat (p : Byte) (s : State) :
    (readPointer p s).1.toNat = 256 * (s.ram.read ((p.toNat + 1) % 256)).toNat + (s.ram.read p.toNat).toNat := by
  have hnext : (p + 1).toNat = (p.toNat + 1) % 256 := BitVec.toNat_add p 1
  rw [readPointer_eq, word_toNat, hnext]

/-- Indexing by Y comes after the pointer is read, which changes no register (R164). -/
theorem locate_izY (p : Byte) (s : State) :
    (locate (.izY p) s).1 = Located.indexed (readPointer p s).1 s.cpu.y := by
  simp only [locate, readPointer_eq]

/-- The mnemonics that take zero page,Y (R176). -/
theorem mem_of_modesOf_zpY {mn : Mnemonic} (h : (modesOf mn).contains .zpY = true) :
    mn ∈ [Mnemonic.ldx, .stx, .lax, .sax] := by
  revert h
  cases mn <;> decide

/-- What a sequence of known bytes decodes to has them as its opcode's entry's bytes. -/
theorem decode_append_eq_ok {bytes rest : List Byte} {i : Instr} (h : decode (bytes ++ rest) = .ok (i, rest)) :
    ∃ (op b : Byte) (a : Word),
      bytes = (formOf op).bytes op b a ∧ operandValue i.operand = (formOf op).value b a := by
  obtain ⟨op, b, a, hbytes, rfl⟩ := decode_eq_ok h
  obtain ⟨-, -, hvalue⟩ := formOf_instr op b a
  exact ⟨op, b, a, List.append_cancel_right hbytes, hvalue⟩

/-- The operand of an instruction with one operand byte is that byte (R153). -/
theorem operandValue_of_decode_two {op b1 : Byte} {rest : List Byte} {i : Instr}
    (h : decode (op :: b1 :: rest) = .ok (i, rest)) : operandValue i.operand = b1.toNat := by
  obtain ⟨op', b, a, hbytes, hvalue⟩ := decode_append_eq_ok (bytes := [op, b1]) h
  rw [hvalue]
  cases hF : formOf op' with
  | bare j => simp [hF, Form.bytes] at hbytes
  | byte f =>
    simp only [hF, Form.bytes, bytes2, List.cons.injEq] at hbytes
    obtain ⟨-, rfl, -⟩ := hbytes
    rfl
  | addr f => simp [hF, Form.bytes, bytes3] at hbytes

/-- The operand of an instruction with two operand bytes is their word, the low byte first (R111, R153). -/
theorem operandValue_of_decode_three {op b1 b2 : Byte} {rest : List Byte} {i : Instr}
    (h : decode (op :: b1 :: b2 :: rest) = .ok (i, rest)) :
    operandValue i.operand = 256 * b2.toNat + b1.toNat := by
  obtain ⟨op', b, a, hbytes, hvalue⟩ := decode_append_eq_ok (bytes := [op, b1, b2]) h
  rw [hvalue]
  cases hF : formOf op' with
  | bare j => simp [hF, Form.bytes] at hbytes
  | byte f => simp [hF, Form.bytes, bytes2] at hbytes
  | addr f =>
    simp only [hF, Form.bytes, bytes3, List.cons.injEq] at hbytes
    obtain ⟨-, rfl, rfl, -⟩ := hbytes
    rw [← word_toNat, word_hiByte_loByte]
    rfl

/-- Settles O6: one mode after the other. -/
theorem effectiveAddresses : Obligations.EffectiveAddresses := by
  refine ⟨fun s p => locate_state p s, fun s b => ⟨?_, ?_, ?_, rfl, rfl, rfl⟩, fun s a => ⟨rfl, rfl⟩,
    fun s a => Located.indexed_spec a s.cpu.x, fun s a => Located.indexed_spec a s.cpu.y, fun s b => ⟨?_, rfl⟩,
    fun s b => ?_, fun i hi => ?_, fun op b1 b2 i rest => ⟨?_, ?_⟩⟩
  · exact zeroPage_toNat b
  · exact zeroPage_add_toNat b s.cpu.x
  · exact zeroPage_add_toNat b s.cpu.y
  · exact (readPointer_toNat (b + s.cpu.x) s).trans (by rw [BitVec.toNat_add])
  · rw [locate_izY]
    obtain ⟨-, hea, hcrossed⟩ := Located.indexed_spec (readPointer b s).1 s.cpu.y
    exact ⟨readPointer_toNat b s, hea, hcrossed⟩
  · exact mem_of_modesOf_zpY (hi ▸ instr_mode_mem i)
  · exact operandValue_of_decode_two
  · exact operandValue_of_decode_three

end Sys2Proof.Machine
end

section
/-! The memory frame (30_encoding.md R175, 20_memory.md R102, R114): outside the device windows a bus write is seen at
its own cell alone, a bank switch apart, and every instruction writes where its store addresses say. -/

namespace Sys2Proof.Machine

/-! One bus write. -/

/-- A PPU bus write changes CHR and the four-screen memory of the cartridge at most (R121, R123). -/
theorem Ppu.busWrite_cart_kept (p : Ppu) (c : Cart) (a : BitVec 14) (v : Byte) :
    ∃ chr fs, (p.busWrite c a v).2 = { c with chr := chr, fsVram := fs } := by
  unfold Ppu.busWrite
  split
  · unfold Cart.ppuWrite
    split <;> exact ⟨_, _, rfl⟩
  all_goals exact ⟨_, _, rfl⟩

/-- So does a PPU register write (R103): of the eight, PPUDATA alone reaches the PPU bus. -/
theorem Ppu.regWrite_cart_kept (p : Ppu) (c : Cart) (r : BitVec 3) (v : Byte) :
    ∃ chr fs, (p.regWrite c r v).2 = { c with chr := chr, fsVram := fs } := by
  unfold Ppu.regWrite
  split_ifs
  iterate 7 exact ⟨c.chr, c.fsVram, rfl⟩
  exact p.busWrite_cart_kept c (p.v.setWidth 14) v

/-- The CPU side of the cartridge after a write to it: PRG RAM changes at the address written, and under mapper 2 the
bank at 0x8000 and above (51_cartridge.md R568 to R571). -/
theorem Cart.cpuRead_cpuWrite {c : Cart} (hc : c.inv = true) {a b : Word} (hab : a ≠ b)
    (hbank : b.toNat < 0x8000 ∨ c.mapper ≠ .uxrom ∨ a.toNat < 0x8000) (v : Byte) :
    (c.cpuWrite a v).cpuRead b = c.cpuRead b := by
  obtain ⟨-, -, -, -, -, hram, -⟩ := Cart.inv_iff.mp hc
  obtain ⟨hwf, -⟩ := Memory.ok_iff.mp hram
  unfold Cart.cpuWrite
  split_ifs with ha6 ha8
  · rfl
  · have hcell : ¬b < 0x6000 → a.toNat - 0x6000 ≠ b.toNat - 0x6000 := by bv_omega
    unfold Cart.cpuRead
    split_ifs with hb6 hb8
    · rfl
    · exact Memory.read_write_other hwf (hcell hb6) v
    · rfl
  · cases hm : c.mapper with
    | nrom => rfl
    | cnrom => simp only [Cart.cpuRead, Cart.prgIndex, hm]
    | uxrom =>
      have hb8 : b < 0x8000 := hbank.resolve_right fun h => h.elim (· hm) ha8
      simp only [Cart.cpuRead, if_pos hb8]

/-- A write elsewhere does not change the CPU side of the cartridge. -/
theorem cpuRead_cpuWrite_of_region_ne_cart {a : Word} (h : region a ≠ .cart) (v : Byte) (s : State) (b : Word) :
    (cpuWrite a v s).cart.cpuRead b = s.cart.cpuRead b := by
  unfold cpuWrite
  cases hr : region a with
  | ppuReg r =>
    obtain ⟨chr, fs, hkept⟩ := s.ppu.regWrite_cart_kept s.cart r v
    simp only [hkept]
    rfl
  | oamDma =>
    obtain ⟨-, -, hcart, -⟩ := dmaCopy_kept v 256 s
    exact congrArg (Cart.cpuRead · b) hcart
  | cart => exact absurd hr h
  | _ => rfl

/-- A write outside internal RAM does not change it. -/
theorem cpuWrite_ram_kept {a : Word} (h : ¬a < 0x2000) (v : Byte) (s : State) : (cpuWrite a v s).ram = s.ram := by
  have hne : ∀ k, region a ≠ .ram k := by
    intro k
    rw [region, if_neg h]
    split_ifs <;> exact Region.noConfusion
  unfold cpuWrite
  cases hr : region a with
  | ram k => exact absurd hr (hne k)
  | oamDma =>
    obtain ⟨-, hram, -, -⟩ := dmaCopy_kept v 256 s
    exact hram
  | _ => rfl

/-- A byte at `b` is out of reach of a store to `a`: it is in another cell, and the store selects no bank there. -/
def OutOfReach (m : Mapper) (a b : Word) : Prop :=
  sameCell a b = false ∧ (b.toNat < 0x8000 ∨ m ≠ .uxrom ∨ a.toNat < 0x8000)

/-- ONE STORE: outside the device windows it changes no byte out of its reach. -/
theorem peek_cpuWrite {a b : Word} {s : State} (hs : s.inv = true) (hb : outsideDevices b = true)
    (hab : OutOfReach s.cart.mapper a b) (v : Byte) : peek (cpuWrite a v s) b = peek s b := by
  obtain ⟨hram, -, hcart, -, -⟩ := State.inv_iff.mp hs
  obtain ⟨hcell, hbank⟩ := hab
  simp only [sameCell, Bool.or_eq_false_iff, beq_eq_false_iff_ne] at hcell
  obtain ⟨hne, hfold⟩ := hcell
  rcases outsideDevices_iff.mp hb with hb | hb
  · by_cases ha : a < 0x2000
    · have hmod : a.toNat % 0x800 ≠ b.toNat % 0x800 := by
        simpa [show a.toNat < 0x2000 from ha, show b.toNat < 0x2000 from hb] using hfold
      rw [peek_cpuWrite_ram (Memory.ok_iff.mp hram).1 ha hb, if_neg hmod]
    · rw [peek, cpuRead_ram hb, cpuWrite_ram_kept ha, peek, cpuRead_ram hb]
  · rw [peek, cpuRead_cart hb, peek, cpuRead_cart hb]
    by_cases ha : region a = .cart
    · simpa only [cpuWrite, ha] using Cart.cpuRead_cpuWrite hcart hne hbank v
    · exact cpuRead_cpuWrite_of_region_ne_cart ha v s b

/-! Memory after a sequence of stores. -/

/-- From `s` to `t`, outside the device windows only bytes that a store to one of `stores` reaches may change. -/
def KeepsMemory (stores : List Word) (s t : State) : Prop :=
  ∀ b : Word, outsideDevices b = true → (∀ a ∈ stores, OutOfReach s.cart.mapper a b) → peek t b = peek s b

variable {s t u : State} {stores : List Word}

/-- The RAM and the cartridge are all the memory there is. -/
theorem KeepsMemory.congr (h : KeepsMemory stores s t) (hu : u.ram = t.ram ∧ u.cart = t.cart) :
    KeepsMemory stores s u := by
  intro b hb hout
  obtain ⟨hram, hcart⟩ := hu
  rw [← h b hb hout]
  unfold peek
  rcases outsideDevices_iff.mp hb with hb | hb
  · rw [cpuRead_ram hb, cpuRead_ram hb, hram]
  · rw [cpuRead_cart hb, cpuRead_cart hb, hcart]

theorem KeepsMemory.refl : KeepsMemory stores s s := fun _ _ _ => rfl

/-- Without a store. -/
theorem keepsMemory_of_same (h : t.ram = s.ram ∧ t.cart = s.cart) : KeepsMemory stores s t :=
  KeepsMemory.refl.congr h

/-- With one store, to a state with the memory of `s`. -/
theorem keepsMemory_of_store (a : Word) (v : Byte) (hu : u.inv = true) (hsu : u.ram = s.ram ∧ u.cart = s.cart) :
    KeepsMemory [a] s (cpuWrite a v u) := by
  intro b hb hout
  have hcart : u.cart = s.cart := hsu.2
  have hua : OutOfReach u.cart.mapper a b := hcart ▸ hout a (List.mem_singleton_self a)
  rw [peek_cpuWrite hu hb hua]
  exact keepsMemory_of_same hsu b hb hout

/-- One sequence of stores after another, with the same mapper. -/
theorem KeepsMemory.trans {stores' : List Word} (h : KeepsMemory stores s t) (h' : KeepsMemory stores' t u)
    (hm : t.cart.mapper = s.cart.mapper) : KeepsMemory (stores ++ stores') s u := by
  intro b hb hout
  obtain ⟨hout, hout'⟩ := List.forall_mem_append.mp hout
  rw [h' b hb (hm ▸ hout'), h b hb hout]

/-! The stack. -/

theorem stackAddr_eq_ofNat (sp : Byte) : stackAddr sp = BitVec.ofNat 16 (256 + sp.toNat) := by
  rw [← stackAddr_toNat, BitVec.ofNat_toNat, BitVec.setWidth_eq]

theorem push_keepsMemory (v : Byte) (hs : s.inv = true) :
    KeepsMemory [BitVec.ofNat 16 (256 + s.cpu.sp.toNat)] s (push v s) := by
  rw [← stackAddr_eq_ofNat]
  exact (keepsMemory_of_store _ _ hs ⟨rfl, rfl⟩).congr ⟨rfl, rfl⟩

/-- Pushes, one after the other. -/
def pushAll (vs : List Byte) (s : State) : State := vs.foldl (fun u v => push v u) s

/-- They store to the slots from S down (10_state.md R34). -/
theorem pushAll_keepsMemory (vs : List Byte) {s : State} (hs : s.inv = true) :
    KeepsMemory (stackSlots vs.length s.cpu.sp) s (pushAll vs s) := by
  induction vs generalizing s with
  | nil => exact .refl
  | cons v vs ih =>
    have hsp : (push v s).cpu.sp = s.cpu.sp - 1 := by rw [push_eq]
    have hm : (push v s).cart.mapper = s.cart.mapper := by rw [push_eq]
    have htail := ih ((Accesses.done.push v).inv hs)
    rw [hsp] at htail
    exact (push_keepsMemory v hs).trans htail hm

theorem pull_kept (s : State) : (pull s).2.ram = s.ram ∧ (pull s).2.cart = s.cart := by
  rw [pull_eq]
  exact ⟨rfl, rfl⟩

theorem pull16_kept (s : State) : (pull16 s).2.ram = s.ram ∧ (pull16 s).2.cart = s.cart := by
  simp [pull16, pull_kept]

theorem returnFromInterrupt_kept (s : State) :
    (returnFromInterrupt s).ram = s.ram ∧ (returnFromInterrupt s).cart = s.cart := by
  rw [returnFromInterrupt_eq]
  exact ⟨rfl, rfl⟩

theorem readIndirect_kept (p : Word) (s : State) :
    (readIndirect p s).2.ram = s.ram ∧ (readIndirect p s).2.cart = s.cart := by
  simp [readIndirect]

theorem jumpVector_kept (vector : Word) (s : State) :
    (jumpVector vector s).ram = s.ram ∧ (jumpVector vector s).cart = s.cart := by
  simp [jumpVector, cpuRead16]

/-! The shapes of instruction (R175). -/

theorem readBy_keepsMemory (f : Byte → Cpu → Cpu) (o : Operand) (cost : Cost) :
    KeepsMemory stores s (readBy f o cost s) := by
  cases o with
  | imm m => exact keepsMemory_of_same ⟨loadSource_ram (.imm m) s, loadSource_cart (.imm m) s⟩
  | mem p => exact keepsMemory_of_same ⟨loadSource_ram (.mem p) s, loadSource_cart (.mem p) s⟩
  | _ => exact .refl

theorem writeBy_keepsMemory (val : Cpu → Byte) (o : Operand) (cost : Cost) (hs : s.inv = true) :
    KeepsMemory (operandAddrs o s) s (writeBy val o cost s) := by
  cases o with
  | mem p =>
    have hloc : (locate p s).2 = s := locate_state p s
    exact (keepsMemory_of_store _ _ (by rwa [hloc]) (by rw [hloc]; exact ⟨rfl, rfl⟩)).congr ⟨rfl, rfl⟩
  | _ => exact .refl

/-- The read before the write changes no memory. -/
theorem modifyBy_keepsMemory (f : Byte → Cpu → Modified) (o : Operand) (cost : Cost) (hs : s.inv = true) :
    KeepsMemory (operandAddrs o s) s (modifyBy f o cost s) := by
  cases o with
  | mem p =>
    have hloc : (locate p s).2 = s := locate_state p s
    have hread : (cpuRead (locate p s).1.ea (locate p s).2).2.inv = true := cpuRead_inv (by rwa [hloc]) _
    exact (keepsMemory_of_store _ _ hread (by simp)).congr ⟨rfl, rfl⟩
  | _ => exact keepsMemory_of_same ⟨rfl, rfl⟩

/-- A high-byte store: `v` is what it ANDs with the high byte (47_unofficial.md R414). -/
theorem highBy_keepsMemory {before : Cpu → Cpu} {val : Byte → Cpu → Byte} {v : Byte} {i : Instr} (o : Operand)
    (hs : s.inv = true) (hb : before s.cpu = { before s.cpu with cycles := s.cpu.cycles })
    (hv : ∀ h, val h (before s.cpu) = v &&& h) :
    KeepsMemory (highStoreAddrs o s v) s (highBy before val o (rowCost i) s) := by
  cases o with
  | mem p =>
    rw [highBy, shStore_eq i hb hv]
    exact (keepsMemory_of_store (s := s) (u := { s with cpu := { before s.cpu with cycles := s.cpu.cycles } })
      _ _ hs ⟨rfl, rfl⟩).congr ⟨rfl, rfl⟩
  | _ => exact .refl

theorem branchBy_keepsMemory (cond : Status → Bool) (o : Operand) (cost : Cost) :
    KeepsMemory stores s (branchBy cond o cost s) := by
  cases o with
  | rel d =>
    simp only [branchBy, branchInstr]
    split
    · exact keepsMemory_of_same ⟨rfl, rfl⟩
    · exact keepsMemory_of_same ⟨rfl, rfl⟩
  | _ => exact .refl

theorem nopBy_keepsMemory (o : Operand) (cost : Cost) : KeepsMemory stores s (nopBy o cost s) := by
  cases o with
  | imm m => exact readBy_keepsMemory effectNop (.imm m) cost
  | mem p => exact readBy_keepsMemory effectNop (.mem p) cost
  | _ => exact keepsMemory_of_same ⟨rfl, rfl⟩

/-- A call pushes two bytes, a jump none. -/
theorem jumpBy_keepsMemory {mn : Mnemonic} (o : Operand) (cost : Cost) (hs : s.inv = true)
    (hst : mn = .jsr → stores = stackSlots 2 s.cpu.sp) : KeepsMemory stores s (jumpBy mn o cost s) := by
  unfold jumpBy
  split
  · rw [hst rfl]
    exact (pushAll_keepsMemory [hiByte (s.cpu.pc - 1), loByte (s.cpu.pc - 1)] hs).congr ⟨rfl, rfl⟩
  · exact keepsMemory_of_same ⟨rfl, rfl⟩
  · exact keepsMemory_of_same (readIndirect_kept _ s)
  · exact .refl

/-- An interrupt entry pushes three bytes (60_exceptions.md R671). -/
theorem takeInterrupt_keepsMemory (b : Bool) (ret vector : Word) (hs : s.inv = true) :
    KeepsMemory (stackSlots 3 s.cpu.sp) s (takeInterrupt b ret vector s) := by
  have hpush := pushAll_keepsMemory [hiByte ret, loByte ret, (push16 ret s).cpu.p.toByte b] hs
  exact hpush.congr (jumpVector_kept vector _)

/-! Every mnemonic. -/

theorem semantics_keepsMemory (i : Instr) (hs : s.inv = true) :
    KeepsMemory (storeAddrs i s) s (semantics i.mnemonic i.operand (rowCost i) s) := by
  unfold storeAddrs
  cases i.mnemonic with
  | lda | ldx | ldy | adc | sbc | and | ora | eor | cmp | cpx | cpy | bit | lax | las | anc | alr | arr | sbx
  | ane | lxa =>
    exact readBy_keepsMemory _ _ _
  | sta | stx | sty | sax => exact writeBy_keepsMemory _ _ _ hs
  | asl | lsr | rol | ror | inc | dec | slo | rla | sre | rra | dcp | isc => exact modifyBy_keepsMemory _ _ _ hs
  | tax | tay | txa | tya | tsx | txs | inx | iny | dex | dey | jam | clc | sec | cli | sei | clv | cld | sed =>
    exact keepsMemory_of_same ⟨rfl, rfl⟩
  | bcc | bcs | beq | bne | bmi | bpl | bvc | bvs => exact branchBy_keepsMemory _ _ _
  | sha | shx | shy | tas => exact highBy_keepsMemory _ hs rfl fun _ => rfl
  | nop => exact nopBy_keepsMemory _ _
  | jmp => exact jumpBy_keepsMemory _ _ hs Mnemonic.noConfusion
  | jsr => exact jumpBy_keepsMemory _ _ hs fun _ => rfl
  | pha => exact (push_keepsMemory s.cpu.a hs).congr ⟨rfl, rfl⟩
  | php => exact (push_keepsMemory (s.cpu.p.toByte true) hs).congr ⟨rfl, rfl⟩
  | pla | plp => exact keepsMemory_of_same (pull_kept s)
  | rts => exact keepsMemory_of_same (pull16_kept s)
  | rti => exact keepsMemory_of_same (returnFromInterrupt_kept s)
  | brk => exact (takeInterrupt_keepsMemory true (s.cpu.pc + 1) irqVector hs).congr ⟨rfl, rfl⟩

/-- Settles O28: an instruction does what its mnemonic does, and that keeps the memory its stores do not reach. -/
theorem memoryFrame : Obligations.MemoryFrame := by
  intro i s t hs ht b hb hcell hbank
  obtain ⟨j, hj, hmn, ho, he⟩ := exec_admitted i
  rw [he, exec_eq j hj] at ht
  cases ht
  refine semantics_keepsMemory j hs b hb ?_
  rw [storeAddrs_congr hmn ho]
  exact fun a ha => ⟨hcell a ha, hbank.imp_right (Or.imp_right fun h => h a ha)⟩

end Sys2Proof.Machine
end

section
/-! Loads, stores and register transfers (41_load_transfer.md R201 to R212, 47_unofficial.md R398). First one rule per
access class (30_encoding.md R175), for every mnemonic of the class: the whole next state that `exec` answers. -/

namespace Sys2Proof.Machine

variable {i : Instr} {mn : Mnemonic}

/-- The mnemonics whose constructors hold an opcode byte are JAM, NOP and ANC: an instruction of another does what its
mnemonic says. -/
theorem exec_of_mnemonic (hmn : i.mnemonic = mn) (hown : mn ∉ [Mnemonic.jam, .nop, .anc]) (s : State) :
    exec i s = .next (semantics mn i.operand (rowCost i) s) := by
  subst hmn
  simp only [List.mem_cons, List.not_mem_nil, or_false, not_or] at hown
  obtain ⟨hjam, hnop, hanc⟩ := hown
  exact exec_eq i (instr_admitted i hjam hnop hanc) s

@[simp] theorem readBy_operand (f : Byte → Cpu → Cpu) (src : Source) (cost : Cost) (s : State) :
    readBy f src.operand cost s = readInstr f src cost s := by
  cases src with
  | imm m => rfl
  | mem p => rfl

/-- A READ INSTRUCTION: `g` of the operand gives the registers. -/
theorem exec_read {f : Byte → Cpu → Cpu} {s : State} {g : Byte → Cpu} (hmn : i.mnemonic = mn)
    (hown : mn ∉ [Mnemonic.jam, .nop, .anc]) (hsem : semantics mn = readBy f)
    (hmodes : (modesOf mn).all (fun m => !([Mode.imp, .acc, .ind, .rel].contains m)) = true)
    (hg : ∀ m, f m s.cpu = { g m with cycles := s.cpu.cycles }) :
    ∃ src : Source, i.operand = src.operand ∧
      exec i s = .next (readNext i s (loadSource src s) (g (loadSource src s).m)) := by
  obtain ⟨src, ho⟩ := source_operand i (by rwa [hmn])
  refine ⟨src, ho, ?_⟩
  rw [exec_of_mnemonic hmn hown, hsem, ho, readBy_operand, readInstr_eq i hg]

/-- A WRITE INSTRUCTION: `val` of the registers is stored. -/
theorem exec_write {val : Cpu → Byte} (hmn : i.mnemonic = mn) (hown : mn ∉ [Mnemonic.jam, .nop, .anc])
    (hsem : semantics mn = writeBy val)
    (hmodes : (modesOf mn).all (fun m => !([Mode.imp, .acc, .imm, .ind, .rel].contains m)) = true) (s : State) :
    ∃ p : Place, i.operand = .mem p ∧
      exec i s = .next (writeNext i s s (locate p s).1.ea (val s.cpu) s.cpu) := by
  obtain ⟨p, ho⟩ := memory_operand i (by rwa [hmn])
  refine ⟨p, ho, ?_⟩
  rw [exec_of_mnemonic hmn hown, hsem, ho, writeBy, writeInstr_eq]

/-- AN INSTRUCTION ON REGISTERS ALONE: it leaves the registers `c`. -/
theorem exec_register {f : Cpu → Cpu} {s : State} {c : Cpu} (hmn : i.mnemonic = mn)
    (hown : mn ∉ [Mnemonic.jam, .nop, .anc]) (hsem : ∀ o, semantics mn o = registerInstr f)
    (hc : f s.cpu = { c with cycles := s.cpu.cycles }) :
    exec i s = .next (registerNext i s c) := by
  rw [exec_of_mnemonic hmn hown, hsem, registerInstr_eq i hc]

/-- Settles O7: a load is a read instruction whose effect is `loadA`, `loadX` or `loadY`. -/
theorem loadsFillRegister : Obligations.LoadsFillRegister := by
  refine ⟨by decide +kernel, by decide +kernel, by decide +kernel, fun i s hi => ?_, fun i s hi => ?_,
    fun i s hi => ?_⟩
  · exact exec_read hi (by decide) rfl rfl s.cpu.loadA_eq
  · exact exec_read hi (by decide) rfl rfl s.cpu.loadX_eq
  · exact exec_read hi (by decide) rfl rfl s.cpu.loadY_eq

/-- Settles O8: a store is a write instruction of one register, SAX of two ANDed. -/
theorem storesWriteRegister : Obligations.StoresWriteRegister := by
  refine ⟨by decide +kernel, by decide +kernel, by decide +kernel, by decide +kernel, fun i s hi => ?_,
    fun i s hi => ?_, fun i s hi => ?_, fun i s hi => ?_⟩
  · exact exec_write hi (by decide) rfl rfl s
  · exact exec_write hi (by decide) rfl rfl s
  · exact exec_write hi (by decide) rfl rfl s
  · exact exec_write hi (by decide) rfl rfl s

/-- Settles O9: a transfer loads its destination with its source, and TXS writes S alone. -/
theorem transfersCopyRegister : Obligations.TransfersCopyRegister := by
  refine ⟨by decide +kernel, by decide +kernel, by decide +kernel, by decide +kernel, by decide +kernel,
    by decide +kernel, fun s => ⟨?tax, ?tay, ?txa, ?tya, ?tsx, ?txs⟩⟩
  case tax => exact exec_register rfl (by decide) (fun _ => rfl) (s.cpu.loadX_eq s.cpu.a)
  case tay => exact exec_register rfl (by decide) (fun _ => rfl) (s.cpu.loadY_eq s.cpu.a)
  case txa => exact exec_register rfl (by decide) (fun _ => rfl) (s.cpu.loadA_eq s.cpu.x)
  case tya => exact exec_register rfl (by decide) (fun _ => rfl) (s.cpu.loadA_eq s.cpu.y)
  case tsx => exact exec_register rfl (by decide) (fun _ => rfl) (s.cpu.loadX_eq s.cpu.sp)
  case txs => exact exec_register rfl (by decide) (fun _ => rfl) rfl

end Sys2Proof.Machine
end

section
/-! The stack instructions (42_stack.md R231 to R234). PHA and PHP share the rule of a charged
push and differ in the byte pushed; PLA and PLP differ in what they do with the byte pulled. -/

namespace Sys2Proof.Machine

/-- A PUSH INSTRUCTION: one byte of page 1 is written, S goes down, the cycles are charged. -/
theorem push_charge (v : Byte) (n : Nat) (s : State) :
    (push v s).charge n =
      { s with
        ram := s.ram.write (256 + s.cpu.sp.toNat) v
        cpu := { s.cpu with sp := s.cpu.sp - 1, cycles := s.cpu.cycles + n } } := by
  rw [push_eq, State.charge]

theorem exec_pha (s : State) : exec .pha s = .next ((push s.cpu.a s).charge 3) := rfl

theorem exec_php (s : State) : exec .php s = .next ((push (s.cpu.p.toByte true) s).charge 3) := rfl

/-- PLA loads A, with N and Z, from the RAM byte above S. -/
theorem exec_pla (s : State) :
    exec .pla s =
      .next (((s.setSp (s.cpu.sp + 1)).mapCpu
        fun c => withA c (s.ram.read (256 + (s.cpu.sp + 1).toNat))).charge 4) := by
  change execPla s = _
  simp only [execPla, pull_eq, Cpu.loadA_eq]

/-- PLP takes P from the RAM byte above S. -/
theorem exec_plp (s : State) :
    exec .plp s =
      .next (((s.setSp (s.cpu.sp + 1)).setP
        (Status.ofByte (s.ram.read (256 + (s.cpu.sp + 1).toNat)))).charge 4) := by
  change execPlp s = _
  simp only [execPlp, pull_eq]

/-- The status byte of PHP has bits 5 and 4 set: 32 + 16 = 48 (R232). -/
theorem Status.toByte_true_toNat (p : Status) :
    (p.toByte true).toNat =
      128 * bitNat p.n + 64 * bitNat p.v + 48 + 8 * bitNat p.d + 4 * bitNat p.i + 2 * bitNat p.z + bitNat p.c := by
  have hb : bitNat true = 1 := rfl
  rw [Status.toByte_toNat]
  omega

/-- Settles O10: the pushes by `push_charge` and the status byte as a number, the pulls by `pull_eq` and the byte's
effect on A or P. -/
theorem stackInstructions : Obligations.StackInstructions := by
  refine ⟨by decide +kernel, by decide +kernel, by decide +kernel, by decide +kernel,
    fun s => ⟨?pha, ⟨s.cpu.p.toByte true, s.cpu.p.toByte_true_toNat, ?php⟩, ?pla, ?plp⟩⟩
  case pha => rw [exec_pha, push_charge]
  case php => rw [exec_php, push_charge]
  case pla => exact exec_pla s
  case plp => rw [exec_plp, Status.ofByte_eq]; rfl

end Sys2Proof.Machine
end

section
/-! Arithmetic, logic, compares, increments and decrements (43_arith_logic.md R250 to R266, 47_unofficial.md R406). The
access rules `exec_read` and `exec_register` give the shape of each next state, with rules added here for compares, for
operands in memory only and for read-modify-writes; what is left is the effect on the registers as a formula. -/

namespace Sys2Proof.Machine

variable {i : Instr} {mn : Mnemonic}

/-! The adder (R250). -/

/-- The overflow bit of the adder by the sign bits: the result differs in sign from each operand. -/
theorem add8_v_eq_msb (a m : Byte) (cin : Bool) :
    (add8 a m cin).v = ((a.msb != (add8 a m cin).r.msb) && (m.msb != (add8 a m cin).r.msb)) := by
  have hmsb (v : Byte) : bit v 7 = v.msb := (BitVec.msb_eq_getLsbD_last v).symm
  simp only [add8, hmsb, BitVec.msb_and, BitVec.msb_xor]

/-- Settles O11: sum, carry and signed overflow by `add8_eq`, overflow by the three sign bits. -/
theorem adderIsExact : Obligations.AdderIsExact := by
  intro a m cin
  refine ⟨?sum, ?carry, ?overflow, ?signs⟩
  case sum => rw [add8_eq, BitVec.toNat_ofNat]
  case carry => rw [add8_eq]
  case overflow => rw [add8_eq]
  case signs =>
    rw [add8_v_eq_msb]
    generalize a.msb = sa, m.msb = sm, (add8 a m cin).r.msb = sr
    revert sa sm sr
    decide

/-- Settles O12: ADC is `addA` of the operand, SBC `addA` of its complement, which subtracts it with borrow. -/
theorem addAndSubtract : Obligations.AddAndSubtract := by
  refine ⟨by decide +kernel, by decide +kernel, fun i s hi => ?adc, fun i s hi => ?sbc⟩
  case adc =>
    exact exec_read (g := fun m => addedTo s.cpu m s.cpu.p.c) hi (by decide) rfl rfl fun m => s.cpu.addA_eq m s.cpu.p.c
  case sbc => exact exec_read (g := subtractedFrom s.cpu) hi (by decide) rfl rfl s.cpu.subA_eq

/-- Settles O13: each loads A with the bitwise combination of A and the operand. -/
theorem logicInstructions : Obligations.LogicInstructions := by
  refine ⟨by decide +kernel, by decide +kernel, by decide +kernel, fun i s hi => ?and, fun i s hi => ?ora,
    fun i s hi => ?eor⟩
  case and =>
    exact exec_read (g := fun m => withA s.cpu (s.cpu.a &&& m)) hi (by decide) rfl rfl fun _ => s.cpu.loadA_eq _
  case ora =>
    exact exec_read (g := fun m => withA s.cpu (s.cpu.a ||| m)) hi (by decide) rfl rfl fun _ => s.cpu.loadA_eq _
  case eor =>
    exact exec_read (g := fun m => withA s.cpu (s.cpu.a ^^^ m)) hi (by decide) rfl rfl fun _ => s.cpu.loadA_eq _

/-! Compares and the bit test (R256 to R260). -/

/-- A COMPARE of the register value `r`: a read instruction that leaves every register and sets the flags of
`comparedTo`. -/
theorem exec_compare {f : Byte → Cpu → Cpu} {s : State} {r : Byte} (hmn : i.mnemonic = mn)
    (hown : mn ∉ [Mnemonic.jam, .nop, .anc]) (hsem : semantics mn = readBy f)
    (hmodes : (modesOf mn).all (fun m => !([Mode.imp, .acc, .ind, .rel].contains m)) = true)
    (hf : ∀ m, f m s.cpu = { s.cpu with p := s.cpu.p.compare r m }) :
    ∃ src : Source, i.operand = src.operand ∧
      exec i s =
        .next (readNext i s (loadSource src s) { s.cpu with p := comparedTo s.cpu.p r (loadSource src s).m }) := by
  refine exec_read (g := fun m => { s.cpu with p := comparedTo s.cpu.p r m }) hmn hown hsem hmodes fun m => ?_
  rw [hf, Status.compare_eq]

/-- The flags of BIT: Z from `a & m`, N and V are bits 7 and 6 of `m` (R260). -/
theorem Status.bitTest_eq (p : Status) (a m : Byte) :
    p.bitTest a m =
      { p with z := decide ((a &&& m).toNat = 0), n := m.toNat.testBit 7, v := m.toNat.testBit 6 } := by
  simp only [Status.bitTest, bit_eq_testBit, byte_eq_iff]
  rfl

/-- A READ INSTRUCTION WITH NO IMMEDIATE FORM: its operand is in memory. -/
theorem exec_readMemory {f : Byte → Cpu → Cpu} {s : State} {g : Byte → Cpu} (hmn : i.mnemonic = mn)
    (hown : mn ∉ [Mnemonic.jam, .nop, .anc]) (hsem : semantics mn = readBy f)
    (hmodes : (modesOf mn).all (fun m => !([Mode.imp, .acc, .imm, .ind, .rel].contains m)) = true)
    (hg : ∀ m, f m s.cpu = { g m with cycles := s.cpu.cycles }) :
    ∃ p : Place, i.operand = .mem p ∧
      exec i s = .next (readNext i s (loadSource (.mem p) s) (g (loadSource (.mem p) s).m)) := by
  obtain ⟨p, ho⟩ := memory_operand i (by rwa [hmn])
  refine ⟨p, ho, ?_⟩
  rw [exec_of_mnemonic hmn hown, hsem, ho, readBy, readInstr_eq i hg]

/-- Settles O14: a compare sets `comparedTo` of its register and the operand, BIT the flags of `Status.bitTest_eq`. -/
theorem compareAndBitTest : Obligations.CompareAndBitTest := by
  refine ⟨by decide +kernel, by decide +kernel, by decide +kernel, by decide +kernel, fun i s hi => ?cmp,
    fun i s hi => ?cpx, fun i s hi => ?cpy, fun i s hi => ?bit⟩
  case cmp => exact exec_compare hi (by decide) rfl rfl fun _ => rfl
  case cpx => exact exec_compare hi (by decide) rfl rfl fun _ => rfl
  case cpy => exact exec_compare hi (by decide) rfl rfl fun _ => rfl
  case bit =>
    simpa only [effectBit, Status.bitTest_eq] using
      exec_readMemory (g := fun m => effectBit m s.cpu) hi (by decide) rfl rfl fun _ => rfl

/-! Increments and decrements (R261 to R266). -/

theorem byte_add_one_eq (v : Byte) : v + 1 = BitVec.ofNat 8 ((v.toNat + 1) % 256) := by
  apply BitVec.eq_of_toNat_eq
  simp [BitVec.toNat_add]

/-- Subtracting 1 modulo 256 is adding 255. -/
theorem byte_sub_one_eq (v : Byte) : v - 1 = BitVec.ofNat 8 ((v.toNat + 255) % 256) := by
  apply BitVec.eq_of_toNat_eq
  simp [BitVec.toNat_sub, Nat.add_comm]

theorem effectInc_eq (m : Byte) (c : Cpu) :
    effectInc m c =
      { r := BitVec.ofNat 8 ((m.toNat + 1) % 256), cpu := withNZ c (BitVec.ofNat 8 ((m.toNat + 1) % 256)) } := by
  rw [effectInc, byte_add_one_eq, Status.setNZ_eq, withNZ]

theorem effectDec_eq (m : Byte) (c : Cpu) :
    effectDec m c =
      { r := BitVec.ofNat 8 ((m.toNat + 255) % 256), cpu := withNZ c (BitVec.ofNat 8 ((m.toNat + 255) % 256)) } := by
  rw [effectDec, byte_sub_one_eq, Status.setNZ_eq, withNZ]

theorem effectInx_eq (c : Cpu) : effectInx c = withX c (BitVec.ofNat 8 ((c.x.toNat + 1) % 256)) := by
  rw [effectInx, byte_add_one_eq, Cpu.loadX_eq]

theorem effectIny_eq (c : Cpu) : effectIny c = withY c (BitVec.ofNat 8 ((c.y.toNat + 1) % 256)) := by
  rw [effectIny, byte_add_one_eq, Cpu.loadY_eq]

theorem effectDex_eq (c : Cpu) : effectDex c = withX c (BitVec.ofNat 8 ((c.x.toNat + 255) % 256)) := by
  rw [effectDex, byte_sub_one_eq, Cpu.loadX_eq]

theorem effectDey_eq (c : Cpu) : effectDey c = withY c (BitVec.ofNat 8 ((c.y.toNat + 255) % 256)) := by
  rw [effectDey, byte_sub_one_eq, Cpu.loadY_eq]

/-- A READ-MODIFY-WRITE INSTRUCTION WITH NO ACCUMULATOR FORM: `g` of the byte read gives the byte written back and the
registers. -/
theorem exec_modifyMemory {f : Byte → Cpu → Modified} {s : State} {g : Byte → Byte × Cpu} (hmn : i.mnemonic = mn)
    (hown : mn ∉ [Mnemonic.jam, .nop, .anc]) (hsem : semantics mn = modifyBy f)
    (hmodes : (modesOf mn).all (fun m => !([Mode.imp, .acc, .imm, .ind, .rel].contains m)) = true)
    (hg : ∀ m, f m s.cpu = { r := (g m).1, cpu := { (g m).2 with cycles := s.cpu.cycles } }) :
    ∃ p : Place, i.operand = .mem p ∧ exec i s = .next (modifyNext i p s g) := by
  obtain ⟨p, ho⟩ := memory_operand i (by rwa [hmn])
  refine ⟨p, ho, ?_⟩
  rw [exec_of_mnemonic hmn hown, hsem, ho, modifyBy, modifyInstr_eq i hg]

/-- Settles O15: INC and DEC by the read-modify-write rule, the register forms by the register rule. -/
theorem incrementAndDecrement : Obligations.IncrementAndDecrement := by
  refine ⟨by decide +kernel, by decide +kernel, by decide +kernel, by decide +kernel, by decide +kernel,
    by decide +kernel, fun i s hi => ?inc, fun i s hi => ?dec, fun s => ⟨?inx, ?iny, ?dex, ?dey⟩⟩
  case inc => exact exec_modifyMemory hi (by decide) rfl rfl fun m => effectInc_eq m s.cpu
  case dec => exact exec_modifyMemory hi (by decide) rfl rfl fun m => effectDec_eq m s.cpu
  case inx => exact exec_register rfl (by decide) (fun _ => rfl) (effectInx_eq s.cpu)
  case iny => exact exec_register rfl (by decide) (fun _ => rfl) (effectIny_eq s.cpu)
  case dex => exact exec_register rfl (by decide) (fun _ => rfl) (effectDex_eq s.cpu)
  case dey => exact exec_register rfl (by decide) (fun _ => rfl) (effectDey_eq s.cpu)

end Sys2Proof.Machine
end

section
/-! Shifts and rotates (44_shift_rotate.md R301 to R304). One access rule serves the accumulator form and the memory
forms of a read-modify-write (30_encoding.md R167, R175); the four effects are the arithmetic of `shiftOf`. -/

namespace Sys2Proof.Machine

/-! The effects by number. -/

/-- A shift leaves the registers with the flags of its result and of the bit shifted out. -/
theorem setShifted_eq (c : Cpu) (x : Shifted) : { c with p := c.p.ofShifted x } = shiftedFlags c x.r x.c := by
  rw [Status.ofShifted, Status.setNZ_eq]
  rfl

theorem effectAsl_eq (m : Byte) (c : Cpu) :
    effectAsl m c = { r := doubled m false, cpu := shiftedFlags c (doubled m false) (topBit m) } := by
  simp only [effectAsl, setShifted_eq, shiftLeft_eq]

theorem effectLsr_eq (m : Byte) (c : Cpu) :
    effectLsr m c = { r := halved m false, cpu := shiftedFlags c (halved m false) (lowBit m) } := by
  simp only [effectLsr, setShifted_eq, shiftRight_eq]

theorem effectRol_eq (m : Byte) (c : Cpu) :
    effectRol m c = { r := doubled m c.p.c, cpu := shiftedFlags c (doubled m c.p.c) (topBit m) } := by
  simp only [effectRol, setShifted_eq, rotateLeft_eq]

theorem effectRor_eq (m : Byte) (c : Cpu) :
    effectRor m c = { r := halved m c.p.c, cpu := shiftedFlags c (halved m c.p.c) (lowBit m) } := by
  simp only [effectRor, setShifted_eq, rotateRight_eq]

/-! The access rule. -/

/-- A READ-MODIFY-WRITE INSTRUCTION WITH AN ACCUMULATOR FORM: `g` of the byte read gives the byte written back, to A or
to memory, and the registers. -/
theorem exec_modify {i : Instr} {mn : Mnemonic} {e : Byte → Cpu → Modified} {s : State} {g : Byte → Byte × Cpu}
    (hmn : i.mnemonic = mn) (hown : mn ∉ [Mnemonic.jam, .nop, .anc]) (hsem : semantics mn = modifyBy e)
    (hmodes : (modesOf mn).all (fun m => !([Mode.imp, .imm, .ind, .rel].contains m)) = true)
    (hg : ∀ m, e m s.cpu = { r := (g m).1, cpu := { (g m).2 with cycles := s.cpu.cycles } }) :
    (i.operand = .acc ∧
      exec i s = .next (registerNext i s { (g s.cpu.a).2 with a := (g s.cpu.a).1 })) ∨
    ∃ p : Place, i.operand = .mem p ∧ exec i s = .next (modifyNext i p s g) := by
  rw [exec_of_mnemonic hmn hown, hsem]
  rcases modified_operand (i := i) (by rwa [hmn]) with ho | ⟨p, ho⟩
  · exact .inl ⟨ho, by rw [ho, modifyBy, modifyAcc_eq i hg]⟩
  · exact .inr ⟨p, ho, by rw [ho, modifyBy, modifyInstr_eq i hg]⟩

/-- THE FOUR MNEMONICS: each is a read-modify-write on A or memory whose effect is its shift of the byte read. -/
theorem semantics_of_shiftOf {mn : Mnemonic} {f : Byte → Bool → Byte × Bool} (h : shiftOf mn = some f) :
    ∃ e : Byte → Cpu → Modified, mn ∉ [Mnemonic.jam, .nop, .anc] ∧ semantics mn = modifyBy e ∧
      (modesOf mn).all (fun m => !([Mode.imp, .imm, .ind, .rel].contains m)) = true ∧
      ∀ m c, e m c = { r := (f m c.p.c).1, cpu := shiftedFlags c (f m c.p.c).1 (f m c.p.c).2 } := by
  cases mn with
  | asl => cases h; exact ⟨effectAsl, by decide, rfl, rfl, effectAsl_eq⟩
  | lsr => cases h; exact ⟨effectLsr, by decide, rfl, rfl, effectLsr_eq⟩
  | rol => cases h; exact ⟨effectRol, by decide, rfl, rfl, effectRol_eq⟩
  | ror => cases h; exact ⟨effectRor, by decide, rfl, rfl, effectRor_eq⟩
  | _ => cases h

/-- Settles O16: a shift is a read-modify-write instruction with the effect of `shiftOf`. -/
theorem shiftsAndRotates : Obligations.ShiftsAndRotates := by
  refine ⟨by decide +kernel, by decide +kernel, by decide +kernel, by decide +kernel, fun i s f hf => ?_⟩
  obtain ⟨e, hown, hsem, hmodes, he⟩ := semantics_of_shiftOf hf
  exact exec_modify (g := fun m => ((f m s.cpu.p.c).1, shiftedFlags s.cpu (f m s.cpu.p.c).1 (f m s.cpu.p.c).2))
    rfl hown hsem hmodes fun m => he m s.cpu

end Sys2Proof.Machine
end

section
/-! Control transfer and the no-operations (45_control.md R321 to R335, 47_unofficial.md R393). First words, their bytes
and the stack pointer by number; then one rule per shape: a branch, a jump, a call or return, BRK, a no-operation. -/

namespace Sys2Proof.Machine

variable {i : Instr} {mn : Mnemonic}

/-! Words, bytes and the stack by number. -/

theorem word_eq_ofNat (hi lo : Byte) : word hi lo = BitVec.ofNat 16 (256 * hi.toNat + lo.toNat) := by
  rw [← word_toNat, BitVec.ofNat_toNat, BitVec.setWidth_eq]

theorem hiByte_eq_ofNat (w : Word) : hiByte w = BitVec.ofNat 8 (w.toNat / 256) := by
  rw [← hiByte_toNat, BitVec.ofNat_toNat, BitVec.setWidth_eq]

theorem loByte_eq_ofNat (w : Word) : loByte w = BitVec.ofNat 8 (w.toNat % 256) := by
  rw [← loByte_toNat, BitVec.ofNat_toNat, BitVec.setWidth_eq]

/-- S after two and three pushes, and after two and three pulls. -/
theorem byte_sub_two (v : Byte) : v - 1 - 1 = v - 2 := by bv_omega

theorem byte_sub_three (v : Byte) : v - 1 - 1 - 1 = v - 3 := by bv_omega

theorem byte_add_two (v : Byte) : v + 1 + 1 = v + 2 := by bv_omega

theorem byte_add_three (v : Byte) : v + 1 + 1 + 1 = v + 3 := by bv_omega

/-- The address one byte on in the same page (30_encoding.md R165). -/
theorem word_hiByte_loByte_add_one (p : Word) :
    word (hiByte p) (loByte p + 1) = BitVec.ofNat 16 (256 * (p.toNat / 256) + (p.toNat + 1) % 256) := by
  have hnext : (loByte p + 1).toNat = (p.toNat + 1) % 256 := by
    rw [BitVec.toNat_add, loByte_toNat]
    exact Nat.mod_add_mod _ _ _
  rw [word_eq_ofNat, hiByte_toNat, hnext]

theorem word_sub_one_toNat (w : Word) : (w - 1).toNat = (w.toNat + 65535) % 65536 := by
  rw [BitVec.toNat_sub, Nat.add_comm]
  rfl

theorem word_add_one_toNat (w : Word) : (w + 1).toNat = (w.toNat + 1) % 65536 :=
  BitVec.toNat_add w 1

/-- A push of a word: its two bytes by number, the high byte at S, the low byte below it (20_memory.md R111). -/
theorem push16_eq (w : Word) (s : State) :
    push16 w s =
      { s with
        ram :=
          (s.ram.write (256 + s.cpu.sp.toNat) (BitVec.ofNat 8 (w.toNat / 256))).write (256 + (s.cpu.sp - 1).toNat)
            (BitVec.ofNat 8 (w.toNat % 256))
        cpu := { s.cpu with sp := s.cpu.sp - 2 } } := by
  simp only [push16, push_eq, byte_sub_two, hiByte_eq_ofNat, loByte_eq_ofNat]

/-- A pull of a word: the low byte from above S, the high byte from above that. -/
theorem pull16_eq (s : State) :
    pull16 s =
      (word (s.ram.read (256 + (s.cpu.sp + 2).toNat)) (s.ram.read (256 + (s.cpu.sp + 1).toNat)),
        s.setSp (s.cpu.sp + 2)) := by
  simp only [pull16, pull_eq, State.setSp, byte_add_two]

/-- TAKING AN INTERRUPT BY NUMBER: the frame of `takeInterrupt_eq`, with the return address as two numbers and the
vector as the two bytes a bus read of it returns (60_exceptions.md R671). -/
theorem takeInterrupt_eq_ofNat (b : Bool) (ret vector : Word) (h : 0x4020 ≤ vector) (h1 : 0x4020 ≤ vector + 1)
    (s : State) :
    takeInterrupt b ret vector s =
      { s with
        ram :=
          ((s.ram.write (256 + s.cpu.sp.toNat) (BitVec.ofNat 8 (ret.toNat / 256))).write (256 + (s.cpu.sp - 1).toNat)
              (BitVec.ofNat 8 (ret.toNat % 256))).write (256 + (s.cpu.sp - 2).toNat) (s.cpu.p.toByte b)
        cpu :=
          { s.cpu with
            sp := s.cpu.sp - 3
            p := { s.cpu.p with i := true }
            pc := BitVec.ofNat 16 (256 * (peek s (vector + 1)).toNat + (peek s vector).toNat) } } := by
  rw [takeInterrupt_eq b ret vector h h1, byte_sub_three, byte_sub_two, hiByte_eq_ofNat, loByte_eq_ofNat,
    word_eq_ofNat, peek, peek, cpuRead_cart h, cpuRead_cart h1]

/-! Branches (R321 to R329). -/

/-- THE EIGHT MNEMONICS: each is a branch on its condition, with a relative operand. -/
theorem semantics_of_branchCondition {cond : Status → Bool} (h : branchCondition mn = some cond) :
    mn ∉ [Mnemonic.jam, .nop, .anc] ∧ semantics mn = branchBy cond ∧
      (modesOf mn).all (fun m => m == .rel) = true := by
  cases mn with
  | bcc | bcs | beq | bne | bmi | bpl | bvc | bvs => cases h; exact ⟨by decide, rfl, rfl⟩
  | _ => cases h

/-- A BRANCH: by its displacement, on its condition. -/
theorem exec_branch {cond : Status → Bool} (h : branchCondition i.mnemonic = some cond) (s : State) :
    ∃ d : Byte, i.operand = .rel d ∧ exec i s = .next (branchInstr cond d (.fixed 2) s) := by
  obtain ⟨hown, hsem, hmodes⟩ := semantics_of_branchCondition h
  obtain ⟨d, ho⟩ := relative_operand hmodes
  refine ⟨d, ho, ?_⟩
  rw [exec_of_mnemonic rfl hown, hsem, rowCost_of_rel ho, ho, branchBy]

/-- Settles O17: a branch instruction is `branchInstr` of its condition, whose next state `branchInstr_eq` gives. -/
theorem branches : Obligations.Branches := by
  refine ⟨by decide +kernel, by decide +kernel, by decide +kernel, by decide +kernel, by decide +kernel,
    by decide +kernel, by decide +kernel, by decide +kernel, fun i s cond hcond => ?_⟩
  obtain ⟨d, ho, he⟩ := exec_branch hcond s
  exact ⟨d, ho, by rw [he, branchInstr_eq]⟩

/-! Jumps, calls and returns (R330 to R333). -/

/-- Only one opcode uses the indirect mode (R176). -/
theorem opcode_of_mode_ind (h : i.operand.mode = .ind) : i.opcode = 0x6C := by
  cases i with
  | jmpInd p => rfl
  | _ => cases h

theorem exec_jmpAbs (a : Word) (s : State) : exec (.jmpAbs a) s = .next ((s.setPc a).charge 3) := rfl

/-- The pointer of JMP by number: two bus reads, the second in the page of the first (30_encoding.md R165). -/
theorem readIndirect_eq (p : Word) (s : State) :
    readIndirect p s =
      let lo := cpuRead p s
      let hi := cpuRead (BitVec.ofNat 16 (256 * (p.toNat / 256) + (p.toNat + 1) % 256)) lo.2
      (BitVec.ofNat 16 (256 * hi.1.toNat + lo.1.toNat), hi.2) := by
  simp only [readIndirect, word_hiByte_loByte_add_one]
  rw [word_eq_ofNat]

/-- JMP through a pointer: what the two reads of `readIndirect` make is PC (R330). -/
theorem exec_jmpInd (p : Word) (s : State) :
    exec (.jmpInd p) s = .next (((readIndirect p s).2.setPc (readIndirect p s).1).charge 5) := rfl

theorem exec_jsrAbs (a : Word) (s : State) :
    exec (.jsrAbs a) s = .next (((push16 (s.cpu.pc - 1) s).setPc a).charge 6) := rfl

theorem exec_rts (s : State) : exec .rts s = .next (((pull16 s).2.setPc ((pull16 s).1 + 1)).charge 6) := rfl

theorem exec_rti (s : State) : exec .rti s = .next ((returnFromInterrupt s).charge 6) := rfl

/-- The address RTS returns to (R332). -/
theorem word_add_one_eq_ofNat (hi lo : Byte) :
    word hi lo + 1 = BitVec.ofNat 16 ((256 * hi.toNat + lo.toNat + 1) % 65536) := by
  rw [← word_toNat, ← word_add_one_toNat, BitVec.ofNat_toNat, BitVec.setWidth_eq]

/-- Settles O18: JMP sets PC to its operand or to what `readIndirect` reads, JSR is `push16_eq`, RTS `pull16_eq` and RTI
`returnFromInterrupt_eq`. -/
theorem jumpsCallsAndReturns : Obligations.JumpsCallsAndReturns := by
  refine ⟨by decide +kernel, fun i => opcode_of_mode_ind, fun s a => exec_jmpAbs a s, fun s p => ?jmpInd,
    by decide +kernel, by decide +kernel, by decide +kernel, fun s a => ?jsr, fun s => ?rts, fun s => ?rti⟩
  case jmpInd =>
    rw [exec_jmpInd, readIndirect_eq]
    simp only [State.setPc, State.charge, cpuRead_cpu]
  case jsr =>
    rw [exec_jsrAbs, push16_eq, word_sub_one_toNat]
    rfl
  case rts =>
    rw [exec_rts, pull16_eq, word_add_one_eq_ofNat]
    rfl
  case rti =>
    rw [exec_rti, returnFromInterrupt_eq, byte_add_three, byte_add_two, Status.ofByte_eq, word_eq_ofNat]
    rfl

/-! BRK (R334). -/

theorem exec_brk (s : State) : exec .brk s = .next ((takeInterrupt true (s.cpu.pc + 1) irqVector s).charge 7) := rfl

/-- Settles O19: BRK takes an interrupt with B set, to return after the byte that follows its opcode. -/
theorem breakTakesInterrupt : Obligations.BreakTakesInterrupt := by
  refine ⟨by decide +kernel, fun s => ?_⟩
  rw [exec_brk, takeInterrupt_eq_ofNat _ _ _ (by decide) (by decide), word_add_one_toNat]
  rfl

/-! The no-operations (R335, R393). -/

/-- THE FORMS OF NOP: implied and immediate, whose rows have 2 cycles, and memory. -/
theorem nop_forms (hmn : i.mnemonic = .nop) (hwf : i.wellFormed = true) :
    (i.operand = .imp ∧ rowCost i = .fixed 2) ∨ (∃ m : Byte, i.operand = .imm m ∧ rowCost i = .fixed 2) ∨
      ∃ p : Place, i.operand = .mem p := by
  cases i with
  | nop => exact .inl ⟨rfl, rfl⟩
  | nopImp op => exact .inl ⟨rfl, rowCost_nopImp op hwf⟩
  | nopImm op m => exact .inr (.inl ⟨m, rfl, rowCost_nopImm m op hwf⟩)
  | nopZp | nopZpX | nopAbs | nopAbsX => exact .inr (.inr ⟨_, rfl⟩)
  | _ => cases hmn

theorem exec_nop (hmn : i.mnemonic = .nop) (hwf : i.wellFormed = true) (s : State) :
    exec i s = .next (nopBy i.operand (rowCost i) s) := by
  rw [exec_eq i hwf, hmn, semantics]

/-- Settles O20: by the three forms; a memory form is a read instruction that leaves the registers. -/
theorem noOperations : Obligations.NoOperations := by
  refine ⟨by decide +kernel, by decide +kernel, fun i s hmn hwf => ?_⟩
  rw [exec_nop hmn hwf]
  rcases nop_forms hmn hwf with ⟨ho, hcost⟩ | ⟨m, ho, hcost⟩ | ⟨p, ho⟩
  · exact .inl ⟨ho, by rw [ho, hcost]; rfl⟩
  · exact .inr (.inl ⟨m, ho, by rw [ho, hcost]; rfl⟩)
  · exact .inr (.inr ⟨p, ho, by rw [ho, nopBy, readInstr_eq i (g := fun _ => s.cpu) fun _ => rfl]⟩)

end Sys2Proof.Machine
end

section
/-! The flag instructions (46_flags.md R370 to R377), and which instructions change V: an access keeps it, so each shape
of instruction keeps it if its register change does. -/

namespace Sys2Proof.Machine

/-- THE SEVEN MNEMONICS: each is an instruction on registers alone that writes its flag, in 2 cycles (R370). -/
theorem exec_of_flagWrite {i : Instr} {f : Status → Status} (h : flagWrite i.mnemonic = some f) (s : State) :
    exec i s = .next (registerInstr (setFlags f) (.fixed 2) s) := by
  cases i with
  | clc | sec | cli | sei | cld | sed | clv => cases h; rfl
  | _ => cases h

/-! What keeps V (R377). -/

/-- A register change that keeps V. -/
def Cpu.KeepsV (f : Cpu → Cpu) : Prop := ∀ c : Cpu, (f c).p.v = c.p.v

/-- A state change that keeps V. -/
def State.KeepsV (f : State → State) : Prop := ∀ s : State, (f s).cpu.p.v = s.cpu.p.v

@[simp] theorem push_p (b : Byte) (s : State) : (push b s).cpu.p = s.cpu.p := by
  rw [push_eq]

@[simp] theorem pull_p (s : State) : (pull s).2.cpu.p = s.cpu.p := by
  rw [pull_eq]
  rfl

/-! The shapes of instruction, by operand (30_encoding.md R175). -/

theorem readInstr_keepsV {f : Byte → Cpu → Cpu} (hf : ∀ m, Cpu.KeepsV (f m)) (src : Source) (cost : Cost) :
    State.KeepsV (readInstr f src cost) := by
  intro s
  simp [readInstr, hf _ s.cpu]

theorem readBy_keepsV {f : Byte → Cpu → Cpu} (hf : ∀ m, Cpu.KeepsV (f m)) (o : Operand) (cost : Cost) :
    State.KeepsV (readBy f o cost) := by
  cases o with
  | imm m => exact readInstr_keepsV hf _ _
  | mem p => exact readInstr_keepsV hf _ _
  | _ => exact fun _ => rfl

theorem writeBy_keepsV (val : Cpu → Byte) (o : Operand) (cost : Cost) : State.KeepsV (writeBy val o cost) := by
  intro s
  cases o with
  | mem p => simp [writeBy, writeInstr]
  | _ => rfl

theorem modifyBy_keepsV {f : Byte → Cpu → Modified} (hf : ∀ m, Cpu.KeepsV fun c => (f m c).cpu) (o : Operand)
    (cost : Cost) : State.KeepsV (modifyBy f o cost) := by
  intro s
  cases o with
  | acc => exact hf s.cpu.a s.cpu
  | mem p => simpa [modifyBy, modifyInstr] using hf _ s.cpu
  | _ => rfl

theorem registerInstr_keepsV {f : Cpu → Cpu} (hf : Cpu.KeepsV f) (cost : Cost) :
    State.KeepsV (registerInstr f cost) := fun s => hf s.cpu

theorem highBy_keepsV {before : Cpu → Cpu} (hb : Cpu.KeepsV before) (val : Byte → Cpu → Byte) (o : Operand)
    (cost : Cost) : State.KeepsV (highBy before val o cost) := by
  intro s
  cases o with
  | mem p => simp [highBy, shStore, hb s.cpu]
  | _ => rfl

theorem branchBy_keepsV (cond : Status → Bool) (o : Operand) (cost : Cost) : State.KeepsV (branchBy cond o cost) := by
  intro s
  cases o with
  | rel d =>
    simp only [branchBy, branchInstr]
    split <;> rfl
  | _ => rfl

theorem nopBy_keepsV (o : Operand) (cost : Cost) : State.KeepsV (nopBy o cost) := by
  cases o with
  | imm m => exact readInstr_keepsV (fun _ _ => rfl) _ _
  | mem p => exact readInstr_keepsV (fun _ _ => rfl) _ _
  | _ => exact registerInstr_keepsV (fun _ => rfl) _

theorem jumpBy_keepsV (mn : Mnemonic) (o : Operand) (cost : Cost) : State.KeepsV (jumpBy mn o cost) := by
  intro s
  unfold jumpBy
  split
  · simp [push16]
  · rfl
  · simp [readIndirect]
  · rfl

/-! Every mnemonic. -/

/-- A mnemonic keeps V, unless it is CLV or one of the eight that may set V. -/
theorem semantics_keepsV {mn : Mnemonic} (h : mn ∉ [Mnemonic.adc, .sbc, .bit, .plp, .rti, .rra, .isc, .arr])
    (hclv : mn ≠ .clv) (o : Operand) (cost : Cost) : State.KeepsV (semantics mn o cost) := by
  cases mn with
  | adc | sbc | bit | plp | rti | rra | isc | arr => simp at h
  | clv => exact absurd rfl hclv
  | lda | ldx | ldy | and | ora | eor | cmp | cpx | cpy | lax | las | anc | alr | sbx | ane | lxa =>
    exact readBy_keepsV (by intro _ _; rfl) o cost
  | sta | stx | sty | sax => exact writeBy_keepsV _ o cost
  | asl | lsr | rol | ror | inc | dec | slo | rla | sre | dcp => exact modifyBy_keepsV (by intro _ _; rfl) o cost
  | tax | tay | txa | tya | tsx | txs | inx | iny | dex | dey | jam | clc | sec | cli | sei | cld | sed =>
    exact registerInstr_keepsV (by intro _; rfl) cost
  | bcc | bcs | beq | bne | bmi | bpl | bvc | bvs => exact branchBy_keepsV _ o cost
  | sha | shx | shy | tas => exact highBy_keepsV (by intro _; rfl) _ o cost
  | nop => exact nopBy_keepsV o cost
  | jmp | jsr => exact jumpBy_keepsV _ o cost
  | pha | php => exact fun s => by simp [semantics]
  | pla => exact fun s => by simp [semantics, Cpu.loadA, Status.setNZ]
  | rts => exact fun s => by simp [semantics, pull16]
  | brk =>
    intro s
    rw [semantics, takeInterrupt_eq _ _ _ (by decide) (by decide)]
    rfl

/-- V GOES FROM 0 TO 1 by one of the eight only: CLV leaves it 0 and the others keep it (R377). -/
theorem mnemonic_mem_of_sets_v {i : Instr} {s t : State} (he : exec i s = .next t) (hs : s.cpu.p.v = false)
    (ht : t.cpu.p.v = true) : i.mnemonic ∈ [Mnemonic.adc, .sbc, .bit, .plp, .rti, .rra, .isc, .arr] := by
  obtain ⟨j, hj, hmn, -, hij⟩ := exec_admitted i
  rw [hij, exec_eq j hj, hmn] at he
  cases he
  by_contra hno
  by_cases hclv : i.mnemonic = .clv
  · rw [hclv] at ht
    cases ht
  · rw [semantics_keepsV hno hclv, hs] at ht
    cases ht

/-- Settles O21: the encodings by the opcode map, a flag instruction by `exec_of_flagWrite`, V by the mnemonic. -/
theorem flagInstructions : Obligations.FlagInstructions := by
  refine ⟨by decide +kernel, by decide +kernel, by decide +kernel, by decide +kernel, by decide +kernel,
    by decide +kernel, by decide +kernel, fun i s f hf => ?flag, fun i s t he hs ht => ?overflow⟩
  case flag => exact exec_of_flagWrite hf s
  case overflow => exact mnemonic_mem_of_sets_v he hs ht

end Sys2Proof.Machine
end

section
/-! The undocumented opcodes (47_unofficial.md R390 to R414). JAM first; then the rules for an immediate operand and
for a high-byte store, and each effect on the registers as a formula over numbers. -/

namespace Sys2Proof.Machine

variable {i : Instr} {mn : Mnemonic}

/-! JAM and the halt (R392). -/

theorem jam_form (hmn : i.mnemonic = .jam) : ∃ op : Byte, i = .jam op := by
  cases i with
  | jam op => exact ⟨op, rfl⟩
  | _ => cases hmn

theorem exec_jam (op : Byte) (s : State) : exec (.jam op) s = .next ((s.mapCpu effectJam).charge 2) := rfl

theorem cpuStep_halted {s : State} (h : s.cpu.halted = true) : cpuStep s = .next (s.charge 1) := if_pos h

theorem nmi_halted {s : State} (h : s.cpu.halted = true) : nmi s = s := if_pos h

theorem irq_halted {s : State} (h : s.cpu.halted = true) : irq s = s := if_pos h

/-- THE HALT STAYS: no access touches it and no register change of an instruction lifts it. -/
theorem Accesses.halted {s t : State} (hacc : Accesses s t) (h : s.cpu.halted = true) : t.cpu.halted = true := by
  refine hacc.keeps (P := fun u => u.cpu.halted = true) h ?read ?write ?regs
  case read => exact fun u a hu => by rwa [cpuRead_cpu]
  case write => exact fun u a v hu => by rwa [cpuWrite_cpu]
  case regs => exact fun _ _ ⟨_, hkeep⟩ hu => hkeep hu

/-- Settles O22: a halted CPU does what `cpuStep_halted` says, instructions are accesses, which keep the halt, and
`cpuReset_eq` gives the registers of a reset. -/
theorem jamHaltsUntilReset : Obligations.JamHaltsUntilReset := by
  refine ⟨by decide +kernel, fun i s hi => ?jam, fun s hs => ⟨cpuStep_halted hs, nmi_halted hs, irq_halted hs⟩,
    fun i s t hs he => (exec_accesses he).halted hs, fun s => ?reset⟩
  case jam =>
    obtain ⟨op, rfl⟩ := jam_form hi
    exact exec_jam op s
  case reset =>
    rw [cpuReset_eq]
    rfl

/-! The read-modify-write combinations (R394 to R397, R400, R401). -/

/-- C is no part of what `loadA` sets, so it may be set before. -/
theorem Cpu.setC_loadA_eq (c : Cpu) (b : Bool) (v : Byte) : (c.setC b).loadA v = withC (withA c v) b := by
  rw [Cpu.loadA_eq]
  rfl

theorem effectSlo_eq (m : Byte) (c : Cpu) :
    effectSlo m c = { r := doubled m false, cpu := withC (withA c (c.a ||| doubled m false)) (topBit m) } := by
  simp only [effectSlo, shiftLeft_eq, Cpu.setC_loadA_eq]

theorem effectRla_eq (m : Byte) (c : Cpu) :
    effectRla m c = { r := doubled m c.p.c, cpu := withC (withA c (c.a &&& doubled m c.p.c)) (topBit m) } := by
  simp only [effectRla, rotateLeft_eq, Cpu.setC_loadA_eq]

theorem effectSre_eq (m : Byte) (c : Cpu) :
    effectSre m c = { r := halved m false, cpu := withC (withA c (c.a ^^^ halved m false)) (lowBit m) } := by
  simp only [effectSre, shiftRight_eq, Cpu.setC_loadA_eq]

theorem effectRra_eq (m : Byte) (c : Cpu) :
    effectRra m c = { r := halved m c.p.c, cpu := addedTo c (halved m c.p.c) (lowBit m) } := by
  simp only [effectRra, rotateRight_eq, Cpu.addA_eq]

theorem effectDcp_eq (m : Byte) (c : Cpu) :
    effectDcp m c =
      { r := BitVec.ofNat 8 ((m.toNat + 255) % 256)
        cpu := { c with p := comparedTo c.p c.a (BitVec.ofNat 8 ((m.toNat + 255) % 256)) } } := by
  rw [effectDcp, byte_sub_one_eq, Status.compare_eq]

theorem effectIsc_eq (m : Byte) (c : Cpu) :
    effectIsc m c =
      { r := BitVec.ofNat 8 ((m.toNat + 1) % 256)
        cpu := subtractedFrom c (BitVec.ofNat 8 ((m.toNat + 1) % 256)) } := by
  rw [effectIsc, byte_add_one_eq, Cpu.subA_eq]

/-- Settles O23: each is a read-modify-write instruction in memory, with the effect of its formula. -/
theorem readModifyWriteCombinations : Obligations.ReadModifyWriteCombinations := by
  refine ⟨by decide +kernel, by decide +kernel, by decide +kernel, fun i s hi => ?slo, fun i s hi => ?rla,
    fun i s hi => ?sre, by decide +kernel, by decide +kernel, by decide +kernel, fun i s hi => ?rra,
    fun i s hi => ?dcp, fun i s hi => ?isc⟩
  case slo => exact exec_modifyMemory hi (by decide) rfl rfl fun m => effectSlo_eq m s.cpu
  case rla => exact exec_modifyMemory hi (by decide) rfl rfl fun m => effectRla_eq m s.cpu
  case sre => exact exec_modifyMemory hi (by decide) rfl rfl fun m => effectSre_eq m s.cpu
  case rra => exact exec_modifyMemory hi (by decide) rfl rfl fun m => effectRra_eq m s.cpu
  case dcp => exact exec_modifyMemory hi (by decide) rfl rfl fun m => effectDcp_eq m s.cpu
  case isc => exact exec_modifyMemory hi (by decide) rfl rfl fun m => effectIsc_eq m s.cpu

/-! The combined loads and the immediate combinations (R399, R402 to R405, R413). -/

theorem byte_sub_eq_ofNat (v u : Byte) : v - u = BitVec.ofNat 8 ((v.toNat + 256 - u.toNat) % 256) := by
  have hu := u.isLt
  apply BitVec.eq_of_toNat_eq
  rw [BitVec.toNat_sub, BitVec.toNat_ofNat]
  omega

theorem effectLax_eq (m : Byte) (c : Cpu) : effectLax m c = { withA c m with x := m } := by
  rw [effectLax, Status.setNZ_eq, withA]

theorem effectLas_eq (m : Byte) (c : Cpu) :
    effectLas m c = { withA c (m &&& c.sp) with x := m &&& c.sp, sp := m &&& c.sp } := by
  simp only [effectLas, Status.setNZ_eq, withA]

theorem effectAnc_eq (m : Byte) (c : Cpu) :
    effectAnc m c = withC (withA c (c.a &&& m)) (topBit (c.a &&& m)) := by
  rw [effectAnc, Cpu.loadA_eq, bit_seven]
  rfl

theorem effectAlr_eq (m : Byte) (c : Cpu) :
    effectAlr m c = withC (withA c (halved (c.a &&& m) false)) (lowBit (c.a &&& m)) := by
  simp only [effectAlr, shiftRight_eq, Status.ofShifted, Status.setNZ_eq, withC, withA]

theorem effectArr_eq (m : Byte) (c : Cpu) :
    effectArr m c =
      let v := halved (c.a &&& m) c.p.c
      { c with
        a := v
        p := { nzOf c.p v with c := v.toNat.testBit 6, v := v.toNat.testBit 6 != v.toNat.testBit 5 } } := by
  simp only [effectArr, rotateRight_eq, Status.setNZ_eq, bit_eq_testBit]

theorem effectSbx_eq (m : Byte) (c : Cpu) :
    effectSbx m c =
      let t := c.a &&& c.x
      withC (withX c (BitVec.ofNat 8 ((t.toNat + 256 - m.toNat) % 256))) (decide (m.toNat ≤ t.toNat)) := by
  simp only [effectSbx, byte_sub_eq_ofNat, Cpu.loadX_eq]
  rfl

/-- An immediate operand makes no access and crosses no page: the instruction is one on registers alone. -/
theorem readInstr_imm (f : Byte → Cpu → Cpu) (m : Byte) (cost : Cost) (s : State) :
    readInstr f (.imm m) cost s = registerInstr (f m) cost s := by
  simp [readInstr, loadSource, registerInstr, Cost.cycles, bitNat]

/-- A READ INSTRUCTION ON AN IMMEDIATE: it leaves the registers `c`. -/
theorem exec_immediate {f : Byte → Cpu → Cpu} {m : Byte} {s : State} {c : Cpu} (hadm : i.opcodeAdmitted = true)
    (hsem : semantics i.mnemonic = readBy f) (ho : i.operand = .imm m)
    (hf : f m s.cpu = { c with cycles := s.cpu.cycles }) :
    exec i s = .next (registerNext i s c) := by
  rw [exec_eq i hadm, hsem, ho, readBy, readInstr_imm, registerInstr_eq i hf]

theorem anc_form (hmn : i.mnemonic = .anc) : ∃ op m : Byte, i = .ancImm op m := by
  cases i with
  | ancImm op m => exact ⟨op, m, rfl⟩
  | _ => cases hmn

/-- Settles O24: LAX and LAS are read instructions in memory, the others read an immediate, and each has the effect of
its formula. -/
theorem combinedLoadsAndImmediates : Obligations.CombinedLoadsAndImmediates := by
  refine ⟨by decide +kernel, by decide +kernel, by decide +kernel, by decide +kernel, by decide +kernel,
    by decide +kernel, fun i s hi => ?lax, fun a s => ?las, fun i s hi hwf => ?anc, fun m s => ?alr, fun m s => ?arr,
    fun m s => ?sbx⟩
  case lax =>
    exact exec_readMemory (g := fun m => { withA s.cpu m with x := m }) hi (by decide) rfl rfl (effectLax_eq · s.cpu)
  case las =>
    obtain ⟨p, ho, he⟩ := exec_readMemory (i := .lasAbsY a) (mn := .las) (g := fun m => effectLas m s.cpu) rfl
      (by decide) rfl rfl fun _ => rfl
    cases ho
    rw [effectLas_eq] at he
    exact he
  case anc =>
    obtain ⟨op, m, rfl⟩ := anc_form hi
    exact ⟨m, rfl, exec_immediate hwf rfl rfl (effectAnc_eq m s.cpu)⟩
  case alr => exact exec_immediate rfl rfl rfl (effectAlr_eq m s.cpu)
  case arr => exact exec_immediate rfl rfl rfl (effectArr_eq m s.cpu)
  case sbx => exact exec_immediate rfl rfl rfl (effectSbx_eq m s.cpu)

/-! ANE and LXA (R407, R408), whatever their two constants are. -/

theorem effectAne_eq (m : Byte) (c : Cpu) :
    effectAne m c = withA c ((c.a ||| Config.aneMagic) &&& c.x &&& m) := by
  rw [effectAne, Cpu.loadA_eq]

theorem effectLxa_eq (m : Byte) (c : Cpu) :
    effectLxa m c =
      { withA c ((c.a ||| Config.lxaMagic) &&& m) with x := (c.a ||| Config.lxaMagic) &&& m } := by
  simp only [effectLxa, Status.setNZ_eq, withA]

/-- Settles O25: both read an immediate, with the effect of their formulas. -/
theorem unstableImmediates : Obligations.UnstableImmediates := by
  refine ⟨by decide +kernel, by decide +kernel, fun m s => ?ane, fun m s => ?lxa⟩
  case ane => exact exec_immediate rfl rfl rfl (effectAne_eq m s.cpu)
  case lxa => exact exec_immediate rfl rfl rfl (effectLxa_eq m s.cpu)

/-! The high-byte stores (R409 to R412, R414). -/

/-- A HIGH-BYTE STORE: `before` leaves the registers `c`, and of these `v` is ANDed with the high byte plus 1. -/
theorem exec_highStore {before : Cpu → Cpu} {val : Byte → Cpu → Byte} {p : Place} {s : State} {c : Cpu} {v : Byte}
    (hmn : i.mnemonic = mn) (hown : mn ∉ [Mnemonic.jam, .nop, .anc]) (hsem : semantics mn = highBy before val)
    (ho : i.operand = .mem p) (hb : before s.cpu = { c with cycles := s.cpu.cycles })
    (hv : ∀ h, val h (before s.cpu) = v &&& h) :
    exec i s =
      .next
        (writeNext i s { s with cpu := { c with cycles := s.cpu.cycles } } (highStoreAddr p s v)
          (highStoreValue p s v) c) := by
  rw [exec_of_mnemonic hmn hown, hsem, ho, highBy, shStore_eq i hb hv]

/-- Settles O26: each is a high-byte store of its registers; TAS alone changes one first. -/
theorem highByteStores : Obligations.HighByteStores := by
  refine ⟨by decide +kernel, by decide +kernel, by decide +kernel, by decide +kernel, fun i s hi => ?sha,
    fun a s => ?shx, fun a s => ?shy, fun a s => ?tas⟩
  case sha =>
    obtain ⟨p, ho⟩ := memory_operand i (by rw [hi]; rfl)
    exact ⟨p, ho, exec_highStore (c := s.cpu) hi (by decide) rfl ho rfl fun _ => rfl⟩
  case shx => exact exec_highStore (mn := .shx) (c := s.cpu) rfl (by decide) rfl rfl rfl fun _ => rfl
  case shy => exact exec_highStore (mn := .shy) (c := s.cpu) rfl (by decide) rfl rfl rfl fun _ => rfl
  case tas =>
    exact exec_highStore (mn := .tas) (c := { s.cpu with sp := s.cpu.a &&& s.cpu.x }) rfl (by decide) rfl rfl rfl
      fun _ => rfl

end Sys2Proof.Machine
end

section
/-! Bit fields and concatenations as numbers (00_scope.md R13), and the PPU's registers as the CPU sees them (50_ppu.md
R460 to R475): each access by its fields' numbers, and what it leaves alone. -/

namespace Sys2Proof.Machine

/-! Bit fields by number. -/

theorem append_toNat {m n : Nat} (x : BitVec m) (y : BitVec n) : (x ++ y).toNat = 2 ^ n * x.toNat + y.toNat := by
  rw [BitVec.toNat_append, ← Nat.shiftLeft_add_eq_or_of_lt y.isLt, Nat.shiftLeft_eq, Nat.mul_comm]

theorem ofBool_toNat (b : Bool) : (BitVec.ofBool b).toNat = bitNat b := by
  cases b <;> rfl

theorem setField_getLsbD {w len : Nat} (v : BitVec w) (lo : Nat) (x : BitVec len) (i : Nat) :
    (setField v lo x).getLsbD i =
      if lo ≤ i ∧ i < lo + len then decide (i < w) && x.getLsbD (i - lo) else v.getLsbD i := by
  simp only [setField, BitVec.getLsbD_or, BitVec.getLsbD_and, BitVec.getLsbD_not, BitVec.getLsbD_shiftLeft,
    BitVec.getLsbD_setWidth, BitVec.getLsbD_allOnes]
  by_cases hw : i < w
  · by_cases hlo : lo ≤ i
    · by_cases hlen : i < lo + len
      · simp [hw, hlo, hlen, show ¬i < lo by omega, show i - lo < w by omega, show i - lo < len by omega]
      · simp [hw, hlo, hlen, show ¬i - lo < len by omega, BitVec.getLsbD_of_ge x (i - lo) (by omega)]
    · simp [hw, hlo, show i < lo by omega]
  · simp [hw, BitVec.getLsbD_of_ge v i (by omega)]

/-- The number of a word one field of which is replaced: the bits below, the field, the bits above. -/
theorem setField_toNat {w len lo : Nat} (h : lo + len ≤ w) (v : BitVec w) (x : BitVec len) :
    (setField v lo x).toNat =
      v.toNat % 2 ^ lo + 2 ^ lo * x.toNat + 2 ^ (lo + len) * (v.toNat / 2 ^ (lo + len)) := by
  have hlow : v.toNat % 2 ^ lo < 2 ^ lo := Nat.mod_lt _ (Nat.two_pow_pos lo)
  have hmid : 2 ^ lo * x.toNat + v.toNat % 2 ^ lo < 2 ^ (lo + len) := by
    have hx : x.toNat + 1 ≤ 2 ^ len := x.isLt
    calc 2 ^ lo * x.toNat + v.toNat % 2 ^ lo < 2 ^ lo * (x.toNat + 1) := by rw [Nat.mul_succ]; omega
      _ ≤ 2 ^ lo * 2 ^ len := Nat.mul_le_mul_left _ hx
      _ = 2 ^ (lo + len) := (Nat.pow_add 2 lo len).symm
  rw [show ∀ a b c : Nat, a + b + c = c + (b + a) from fun _ _ _ => by omega]
  refine Nat.eq_of_testBit_eq fun i => ?_
  rw [Nat.testBit_two_pow_mul_add _ hmid, Nat.testBit_two_pow_mul_add _ hlow, Nat.testBit_div_two_pow,
    Nat.testBit_mod_two_pow, BitVec.testBit_toNat, BitVec.testBit_toNat, BitVec.testBit_toNat, BitVec.testBit_toNat,
    setField_getLsbD]
  rcases Nat.lt_or_ge i lo with hi | hi
  · simp [hi, show i < lo + len by omega, show ¬lo ≤ i by omega]
  · rcases Nat.lt_or_ge i (lo + len) with hi' | hi'
    · simp [hi, hi', show ¬i < lo by omega, show i < w by omega]
    · simp [show ¬i < lo + len by omega, show i - (lo + len) + (lo + len) = i by omega]

/-! The registers other than PPUSCROLL, PPUADDR and PPUDATA (R460, R462 to R466, R472, R474). -/

theorem Ppu.statusByte_toNat (p : Ppu) :
    p.statusByte.toNat =
      128 * bitNat p.vblank + 64 * bitNat p.sprite0Hit + 32 * bitNat p.spriteOverflow + p.ioLatch.toNat % 32 := by
  simp only [Ppu.statusByte, append_toNat, ofBool_toNat, field_toNat]
  omega

/-- A write-only register reads the latch (R472). -/
theorem Ppu.regRead_writeOnly {r : BitVec 3} (h : r ∈ ([0, 1, 3, 5, 6] : List (BitVec 3))) (p : Ppu) (c : Cart) :
    p.regRead c r = (p.ioLatch, p) := by
  have hr : r ≠ 2 ∧ r ≠ 4 ∧ r ≠ 7 := by revert r; decide
  obtain ⟨h2, h4, h7⟩ := hr
  rw [Ppu.regRead, if_neg h2, if_neg h4, if_neg h7]

theorem Ppu.writeCtrl_eq (p : Ppu) (v : Byte) :
    p.writeCtrl v =
      { p with
        ctrl := v
        t := BitVec.ofNat 15 (p.t.toNat % 1024 + 1024 * (v.toNat % 4) + 4096 * (p.t.toNat / 4096))
        nmiRequest := p.nmiRequest || (decide (p.ctrl.toNat < 128 ∧ 128 ≤ v.toNat) && p.vblank) } := by
  have ht : setField p.t 10 (field v 0 2) =
      BitVec.ofNat 15 (p.t.toNat % 1024 + 1024 * (v.toNat % 4) + 4096 * (p.t.toNat / 4096)) := by
    have := p.t.isLt
    apply BitVec.eq_of_toNat_eq
    rw [setField_toNat (by decide), field_toNat, BitVec.toNat_ofNat]
    omega
  have hn : (!bit p.ctrl 7 && bit v 7) = decide (p.ctrl.toNat < 128 ∧ 128 ≤ v.toNat) := by
    simp only [bit_seven, ← decide_not, Nat.not_le, Bool.decide_and]
  rw [Ppu.writeCtrl, ht, hn]

theorem Ppu.writeOamData_eq (p : Ppu) (v : Byte) :
    p.writeOamData v =
      { p with
        oam := p.oam.write p.oamAddr.toNat (oamKept p.oamAddr.toNat v)
        oamAddr := BitVec.ofNat 8 ((p.oamAddr.toNat + 1) % 256) } := by
  rw [Ppu.writeOamData, Ppu.oamStore_eq, byte_add_one_eq]

/-- Settles O37: the status byte and PPUCTRL's `t` as numbers, OAMDATA by `oamStore_eq`, the others as defined. -/
theorem ppuRegisterAccess : Obligations.PpuRegisterAccess := by
  refine ⟨fun p c => ⟨p.statusByte_toNat, rfl, rfl, fun r hr => p.regRead_writeOnly hr c⟩, fun p c v => ?ctrl,
    fun _ _ _ => rfl, fun _ _ _ => rfl, fun _ _ _ => rfl, fun p c v => ?oamData⟩
  case ctrl => exact congrArg (fun q : Ppu => (q.latch v, c)) (p.writeCtrl_eq v)
  case oamData => exact congrArg (fun q : Ppu => (q.latch v, c)) (p.writeOamData_eq v)

/-! PPUSCROLL and PPUADDR (R467, R468). -/

theorem Ppu.writeScroll_first {p : Ppu} (h : p.w = false) (v : Byte) :
    p.writeScroll v =
      { p with
        t := BitVec.ofNat 15 (32 * (p.t.toNat / 32) + v.toNat / 8)
        x := BitVec.ofNat 3 (v.toNat % 8), w := true } := by
  have ht : setField p.t 0 (field v 3 5) = BitVec.ofNat 15 (32 * (p.t.toNat / 32) + v.toNat / 8) := by
    apply BitVec.eq_of_toNat_eq
    rw [setField_toNat (by decide), field_toNat, BitVec.toNat_ofNat]
    omega
  have hx : field v 0 3 = BitVec.ofNat 3 (v.toNat % 8) := by
    apply BitVec.eq_of_toNat_eq
    rw [field_toNat, BitVec.toNat_ofNat]
    omega
  simp [Ppu.writeScroll, h, ht, hx]

theorem Ppu.writeScroll_second {p : Ppu} (h : p.w = true) (v : Byte) :
    p.writeScroll v =
      { p with
        t :=
          BitVec.ofNat 15
            (p.t.toNat % 32 + 32 * (v.toNat / 8) + 1024 * (p.t.toNat / 1024 % 4) + 4096 * (v.toNat % 8))
        w := false } := by
  have ht : setField (setField p.t 12 (field v 0 3)) 5 (field v 3 5) =
      BitVec.ofNat 15
        (p.t.toNat % 32 + 32 * (v.toNat / 8) + 1024 * (p.t.toNat / 1024 % 4) + 4096 * (v.toNat % 8)) := by
    apply BitVec.eq_of_toNat_eq
    have hfine : (setField p.t 12 (field v 0 3)).toNat = p.t.toNat % 4096 + 4096 * (v.toNat % 8) := by
      rw [setField_toNat (by decide), field_toNat]
      omega
    have hlow : (p.t.toNat % 4096 + 4096 * (v.toNat % 8)) % 32 = p.t.toNat % 32 := by omega
    have hhigh : (p.t.toNat % 4096 + 4096 * (v.toNat % 8)) / 1024 = p.t.toNat / 1024 % 4 + 4 * (v.toNat % 8) := by
      omega
    have hcoarse : v.toNat / 8 < 32 := by omega
    rw [setField_toNat (by decide), hfine, field_toNat, BitVec.toNat_ofNat]
    simp only [Nat.reducePow, Nat.reduceAdd, hlow, hhigh, Nat.mod_eq_of_lt hcoarse]
    omega
  simp [Ppu.writeScroll, h, ht]

theorem Ppu.writeAddr_first {p : Ppu} (h : p.w = false) (v : Byte) :
    p.writeAddr v = { p with t := BitVec.ofNat 15 (p.t.toNat % 256 + 256 * (v.toNat % 64)), w := true } := by
  have ht : setField (setField p.t 8 (field v 0 6)) 14 0#1 =
      BitVec.ofNat 15 (p.t.toNat % 256 + 256 * (v.toNat % 64)) := by
    apply BitVec.eq_of_toNat_eq
    rw [setField_toNat (by decide), setField_toNat (by decide), field_toNat, BitVec.toNat_ofNat, BitVec.toNat_ofNat]
    omega
  simp [Ppu.writeAddr, h, ht]

theorem Ppu.writeAddr_second {p : Ppu} (h : p.w = true) (v : Byte) :
    p.writeAddr v =
      { p with
        t := BitVec.ofNat 15 (256 * (p.t.toNat / 256) + v.toNat)
        v := BitVec.ofNat 15 (256 * (p.t.toNat / 256) + v.toNat), w := false } := by
  have ht : setField p.t 0 v = BitVec.ofNat 15 (256 * (p.t.toNat / 256) + v.toNat) := by
    apply BitVec.eq_of_toNat_eq
    rw [setField_toNat (by decide), BitVec.toNat_ofNat]
    omega
  simp [Ppu.writeAddr, h, ht]

/-- Settles O38: the fields the four writes replace, by `setField_toNat`. -/
theorem scrollAndAddressWrites : Obligations.ScrollAndAddressWrites := by
  intro p c v
  refine ⟨fun h => ?_, fun h => ?_, fun h => ?_, fun h => ?_⟩
  · exact congrArg (fun q : Ppu => (q.latch v, c)) (Ppu.writeScroll_first h v)
  · exact congrArg (fun q : Ppu => (q.latch v, c)) (Ppu.writeScroll_second h v)
  · exact congrArg (fun q : Ppu => (q.latch v, c)) (Ppu.writeAddr_first h v)
  · exact congrArg (fun q : Ppu => (q.latch v, c)) (Ppu.writeAddr_second h v)

/-! PPUDATA (R469 to R471). -/

theorem Ppu.setWidth_v (p : Ppu) : p.v.setWidth 14 = BitVec.ofNat 14 (p.v.toNat % 0x4000) :=
  BitVec.eq_of_toNat_eq (by simp)

theorem Ppu.advanceV_eq (p : Ppu) :
    p.advanceV =
      { p with v := BitVec.ofNat 15 ((p.v.toNat + if p.ctrl.toNat.testBit 2 then 32 else 1) % 0x8000) } := by
  have h : p.v + p.inc = BitVec.ofNat 15 ((p.v.toNat + if p.ctrl.toNat.testBit 2 then 32 else 1) % 0x8000) := by
    apply BitVec.eq_of_toNat_eq
    rw [Ppu.inc, bit_eq_testBit]
    split <;> simp
  rw [Ppu.advanceV, h]

/-- Of the PPU, a bus write changes the nametables and the palette at most. -/
theorem Ppu.busWrite_kept (p : Ppu) (c : Cart) (a : BitVec 14) (v : Byte) :
    ∃ ciram pal, (p.busWrite c a v).1 = { p with ciram := ciram, palette := pal } := by
  unfold Ppu.busWrite
  split <;> exact ⟨_, _, rfl⟩

/-- A palette read by number: the latch's two high bits over the six of the palette cell. -/
theorem paletteByte_toNat (latch cell : Byte) :
    (field latch 6 2 ++ field cell 0 6).toNat = 64 * (latch.toNat / 64) + cell.toNat % 64 := by
  rw [append_toNat, field_toNat, field_toNat]
  omega

/-- Settles O39: `advanceV_eq` moves `v`, and a bus write leaves the registers alone. -/
theorem ppuDataAccess : Obligations.PpuDataAccess := by
  refine ⟨fun p c => ?_, fun p c v => ?_⟩
  all_goals
    intro a next
    have ha : p.v.setWidth 14 = a := p.setWidth_v
  · have hread : p.regRead c 7 = p.readData c := rfl
    rw [hread, Ppu.readData, ha]
    refine ⟨fun h => ?_, fun h => ?_⟩
    · rw [if_pos (show a < 0x3F00 from h), Ppu.advanceV_eq]
    · have hge : ¬a < 0x3F00 := by bv_omega
      have hunder : a - 0x1000 = BitVec.ofNat 14 (a.toNat - 0x1000) := by bv_omega
      rw [if_neg hge, hunder]
      refine ⟨paletteByte_toNat _ _, ?_⟩
      rw [Ppu.advanceV_eq]
  · have hwrite : p.regWrite c 7 v = ((p.writeData c v).1.latch v, (p.writeData c v).2) := rfl
    obtain ⟨ciram, pal, hbus⟩ := p.busWrite_kept c a v
    rw [hwrite, Ppu.writeData, ha, Ppu.advanceV_eq]
    simp only [hbus]
    rfl

end Sys2Proof.Machine
end

section
/-! One dot by its parts (50_ppu.md R500 to R503): what of a dot the rendering, the pixel and the VBlank boundaries
decide, and how the position moves through a frame. -/

namespace Sys2Proof.Machine

/-! The parts of a dot. -/

/-- The PPU after the rendering and the pixel of a dot, before the VBlank boundaries. -/
def Ppu.drawn (p : Ppu) (c : Cart) : Ppu := (p.renderDot c).pixelDot c

theorem Ppu.dotActions_eq (p : Ppu) (c : Cart) : p.dotActions c = (p.drawn c).vblankDot := rfl

/-- What neither the rendering nor the pixel of a dot changes. -/
theorem Ppu.drawn_kept (p : Ppu) (c : Cart) :
    (p.drawn c).scanline = p.scanline ∧ (p.drawn c).dot = p.dot ∧ (p.drawn c).ctrl = p.ctrl ∧
      (p.drawn c).vblank = p.vblank ∧ (p.drawn c).nmiRequest = p.nmiRequest ∧ (p.drawn c).w = p.w ∧
      (p.drawn c).ioLatch = p.ioLatch ∧ (p.drawn c).t = p.t := by
  obtain ⟨hit, fb, h⟩ := (p.renderDot c).pixelDot_kept c
  have hr := p.renderDot_same c
  rw [Ppu.drawn, h]
  exact ⟨hr.scanline, hr.dot, hr.ctrl, hr.vblank, hr.nmiRequest, hr.w, hr.ioLatch, hr.t⟩

/-- After its actions a dot moves the position on and withdraws the NMI request, nothing else. -/
theorem Ppu.step_eq (p : Ppu) (c : Cart) :
    ∃ d l f, (p.step c).1 = { p.dotActions c with dot := d, scanline := l, frame := f, nmiRequest := false } ∧
      (p.step c).2.nmi = (p.dotActions c).nmiRequest := by
  obtain ⟨d, l, f, h⟩ := (p.dotActions c).advance_kept
  refine ⟨d, l, f, ?_, ?_⟩ <;> simp only [Ppu.step, h]

/-- The three things the VBlank boundaries can do (R501, R502). -/
theorem Ppu.vblankDot_cases (p : Ppu) :
    (p.scanline = 241 ∧ p.dot = 1 ∧ p.vblankDot = p.vblankStart) ∨
      (p.scanline = 261 ∧ p.dot = 1 ∧ p.vblankDot = p.vblankEnd) ∨
      (¬(p.scanline = 241 ∧ p.dot = 1) ∧ ¬(p.scanline = 261 ∧ p.dot = 1) ∧ p.vblankDot = p) := by
  unfold Ppu.vblankDot
  split
  · next h => exact .inl ⟨h.1, h.2, rfl⟩
  · next h =>
    split
    · next h' => exact .inr (.inl ⟨h'.1, h'.2, rfl⟩)
    · next h' => exact .inr (.inr ⟨h, h', rfl⟩)

/-- No dot changes the toggle, the latch or `t` (R473, R475, R500). -/
theorem Ppu.step_kept (p : Ppu) (c : Cart) :
    (p.step c).1.w = p.w ∧ (p.step c).1.ioLatch = p.ioLatch ∧ (p.step c).1.t = p.t := by
  obtain ⟨-, -, -, -, -, hw, hl, ht⟩ := p.drawn_kept c
  obtain ⟨d, l, f, h, -⟩ := p.step_eq c
  obtain ⟨vb, hit, ovf, nmi, hv⟩ := (p.drawn c).vblankDot_kept
  rw [h, p.dotActions_eq c, hv]
  exact ⟨hw, hl, ht⟩

/-! The write toggle and the latch (R473, R475). -/

theorem Ppu.writeScroll_toggles (p : Ppu) (v : Byte) : (p.writeScroll v).w = !p.w := by
  cases h : p.w with
  | false => rw [Ppu.writeScroll_first h]; rfl
  | true => rw [Ppu.writeScroll_second h]; rfl

theorem Ppu.writeAddr_toggles (p : Ppu) (v : Byte) : (p.writeAddr v).w = !p.w := by
  cases h : p.w with
  | false => rw [Ppu.writeAddr_first h]; rfl
  | true => rw [Ppu.writeAddr_second h]; rfl

theorem Ppu.writeData_keepsToggle (p : Ppu) (c : Cart) (v : Byte) : (p.writeData c v).1.w = p.w := by
  obtain ⟨ciram, pal, h⟩ := p.busWrite_kept c (p.v.setWidth 14) v
  simp only [Ppu.writeData, h]
  rfl

theorem Ppu.regWrite_toggle (p : Ppu) (c : Cart) (r : BitVec 3) (v : Byte) :
    (p.regWrite c r v).1.w = if r = 5 ∨ r = 6 then !p.w else p.w := by
  by_cases h5 : r = 5
  · subst h5
    exact p.writeScroll_toggles v
  by_cases h6 : r = 6
  · subst h6
    exact p.writeAddr_toggles v
  rw [if_neg (not_or.mpr ⟨h5, h6⟩), Ppu.regWrite, if_neg h5, if_neg h6]
  split_ifs
  iterate 5 rfl
  exact p.writeData_keepsToggle c v

theorem Ppu.regWrite_latch (p : Ppu) (c : Cart) (r : BitVec 3) (v : Byte) : (p.regWrite c r v).1.ioLatch = v := by
  unfold Ppu.regWrite
  split_ifs <;> rfl

theorem Ppu.readData_kept (p : Ppu) (c : Cart) : (p.readData c).2.w = p.w ∧ (p.readData c).2.ioLatch = p.ioLatch := by
  unfold Ppu.readData
  dsimp only
  split <;> exact ⟨rfl, rfl⟩

theorem Ppu.regRead_toggleAndLatch (p : Ppu) (c : Cart) (r : BitVec 3) :
    (p.regRead c r).2.w = (if r = 2 then false else p.w) ∧ (p.regRead c r).2.ioLatch = p.ioLatch := by
  by_cases h2 : r = 2
  · subst h2
    exact ⟨rfl, rfl⟩
  by_cases h7 : r = 7
  · subst h7
    exact p.readData_kept c
  · rw [if_neg h2, Ppu.regRead_unchanged h2 h7]
    exact ⟨rfl, rfl⟩

/-- Settles O40: register by register, then `step_kept` for the dots. -/
theorem writeToggleAndLatch : Obligations.WriteToggleAndLatch := by
  refine ⟨fun p c r v => ⟨p.regWrite_toggle c r v, p.regWrite_latch c r v⟩, fun p c r => p.regRead_toggleAndLatch c r,
    fun p c => ?_, fun s => ?_⟩
  · obtain ⟨hw, hl, -⟩ := p.step_kept c
    exact ⟨hw, hl⟩
  · rw [machineReset, cpuReset_eq]
    exact ⟨rfl, rfl⟩

/-! VBlank, the sprite flags and the NMI report (R461, R502). -/

/-- The status flags and the frame buffer after a dot are those its actions leave, and the request they leave is
reported. -/
theorem Ppu.step_flags (p : Ppu) (c : Cart) :
    (p.step c).1.vblank = (p.drawn c).vblankDot.vblank ∧
      (p.step c).1.sprite0Hit = (p.drawn c).vblankDot.sprite0Hit ∧
      (p.step c).1.spriteOverflow = (p.drawn c).vblankDot.spriteOverflow ∧
      (p.step c).1.frameBuffer = (p.drawn c).vblankDot.frameBuffer ∧
      (p.step c).2.nmi = (p.drawn c).vblankDot.nmiRequest := by
  obtain ⟨d, l, f, h, hn⟩ := p.step_eq c
  rw [h, hn]
  exact ⟨rfl, rfl, rfl, rfl, rfl⟩

/-- The rendering of a dot sets the overflow flag or leaves it. -/
theorem Ppu.renderDot_spriteOverflow {p : Ppu} (h : p.spriteOverflow = true) (c : Cart) :
    (p.renderDot c).spriteOverflow = true := by
  obtain ⟨-, -, hb⟩ := p.backgroundDot_sprites c
  unfold Ppu.renderDot Ppu.spriteDot
  simp only
  repeat' split
  · exact hb.trans h
  · simp [Ppu.evaluateSprites, hb, h]
  · exact hb.trans h
  · exact h
  · exact h

/-- The rendering and the pixel of a dot clear no sprite flag. -/
theorem Ppu.drawn_flags (p : Ppu) (c : Cart) :
    (p.sprite0Hit = true → (p.drawn c).sprite0Hit = true) ∧
      (p.spriteOverflow = true → (p.drawn c).spriteOverflow = true) := by
  have hr := (p.renderDot_same c).sprite0Hit
  unfold Ppu.drawn Ppu.pixelDot
  split
  · exact ⟨fun h => by simp [Ppu.outputPixel, hr, h], fun h => Ppu.renderDot_spriteOverflow h c⟩
  · exact ⟨hr.trans, fun h => Ppu.renderDot_spriteOverflow h c⟩

/-- Settles O41: the three things the VBlank boundaries can do. -/
theorem vblankAndNmiReport : Obligations.VblankAndNmiReport := by
  intro p c q start stop
  obtain ⟨hvb, hhit, hovf, -, hnmi⟩ := p.step_flags c
  obtain ⟨hs, hd, hc, hvb', hnmi', -⟩ := p.drawn_kept c
  have hset := p.drawn_flags c
  have h := (p.drawn c).vblankDot_cases
  rw [hs, hd] at h
  simp only [q, hvb, hhit, hovf, hnmi, Ppu.step_nmiRequest, start, stop]
  obtain ⟨hl, hp, h⟩ | ⟨hl, hp, h⟩ | ⟨h241, h261, h⟩ := h
  · rw [h]
    simp only [Ppu.vblankStart, hl, hp, hc, hnmi', bit_seven]
    simpa using hset
  · rw [h]
    simp only [Ppu.vblankEnd, hl, hp, hnmi']
    simp
  · rw [h]
    simp only [h241, h261, hvb', hnmi']
    simpa using hset

/-! The position and the frame (R503). -/

/-- Whether the odd-frame rule ends the frame at this dot. -/
theorem Ppu.skipsDot_iff (p : Ppu) :
    p.skipsDot = true ↔
      (Config.oddFrameSkip && p.rendering && decide (p.frame % 2 = 1 ∧ p.scanline = 261 ∧ p.dot = 339)) = true := by
  simp only [Ppu.skipsDot, Bool.and_eq_true, beq_iff_eq, decide_eq_true_eq]
  tauto

/-- A dot that neither ends the frame nor is the last of its line moves one to the right; the last of a line moves to
the next line (R503). -/
theorem Ppu.step_moves {p : Ppu} (hskip : ¬p.skipsDot = true) (hend : ¬(p.dot = 340 ∧ p.scanline = 261)) (c : Cart) :
    (p.step c).1.dot = (if p.dot = 340 then 0 else p.dot + 1) ∧
      (p.step c).1.scanline = (if p.dot = 340 then p.scanline + 1 else p.scanline) ∧
      (p.step c).1.frame = p.frame ∧ (p.step c).2.frameReady = false := by
  obtain ⟨hd, hs, hf, hr⟩ := p.step_position c
  rw [hd, hs, hf, hr, Ppu.advance, if_neg hskip]
  by_cases hlast : p.dot = 340
  · rw [if_pos (by omega), if_neg (by omega), if_pos hlast, if_pos hlast]
    exact ⟨rfl, rfl, rfl, rfl⟩
  · rw [if_neg (by omega), if_neg hlast, if_neg hlast]
    exact ⟨rfl, rfl, rfl, rfl⟩

/-- The last dot of a frame goes back to (0, 0), counts the frame and raises frame-ready (R503). -/
theorem Ppu.step_endsFrame {p : Ppu} (h : p.skipsDot = true ∨ p.dot = 340 ∧ p.scanline = 261) (c : Cart) :
    (p.step c).1.dot = 0 ∧ (p.step c).1.scanline = 0 ∧ (p.step c).1.frame = p.frame + 1 ∧
      (p.step c).2.frameReady = true := by
  obtain ⟨hd, hs, hf, hr⟩ := p.step_position c
  rw [hd, hs, hf, hr, Ppu.advance]
  by_cases hskip : p.skipsDot = true
  · rw [if_pos hskip]
    exact ⟨rfl, rfl, rfl, rfl⟩
  · obtain ⟨hlast, hline⟩ := h.resolve_left hskip
    rw [if_neg hskip, if_pos (by omega), if_pos (by omega)]
    exact ⟨rfl, rfl, rfl, rfl⟩

/-- The dots of the whole frame that starts at a PPU's position (0, 0). -/
def Ppu.frameLength (p : Ppu) : Nat :=
  if (Config.oddFrameSkip && p.rendering && decide (p.frame % 2 = 1)) = true then 89341 else 89342

theorem Ppu.frameLength_range (p : Ppu) : p.frameLength = 89341 ∨ p.frameLength = 89342 := by
  unfold Ppu.frameLength
  split <;> simp

theorem Ppu.frameLength_eq_short_iff (p : Ppu) :
    p.frameLength = 89341 ↔ (Config.oddFrameSkip && p.rendering && decide (p.frame % 2 = 1)) = true := by
  rw [Ppu.frameLength, ite_eq_left_iff]
  exact ⟨fun h => by_contra fun hn => absurd (h hn) (by decide), fun h hn => absurd h hn⟩

/-- `k` dots into the frame that `p` starts: the position by `k`, the frame count and PPUMASK as they were. -/
structure Ppu.IntoFrame (p : Ppu) (k : Nat) (q : Ppu) : Prop where
  scanline : q.scanline = k / 341
  dot : q.dot = k % 341
  frame : q.frame = p.frame
  mask : q.mask = p.mask

/-- The odd-frame skip falls on dot 89341 exactly in the frames it shortens. -/
theorem Ppu.IntoFrame.skipsDot_iff {p q : Ppu} {k : Nat} (h : p.IntoFrame k q) :
    q.skipsDot = true ↔ p.frameLength = 89341 ∧ k = 89340 := by
  have hpos : (k / 341 = 261 ∧ k % 341 = 339) ↔ k = 89340 := by omega
  have hrend : q.rendering = p.rendering := by simp only [Ppu.rendering, h.mask]
  rw [Ppu.skipsDot_iff, h.frame, h.scanline, h.dot, hrend, Ppu.frameLength_eq_short_iff]
  simp only [Bool.and_eq_true, decide_eq_true_eq, hpos, and_assoc]

/-- Before its last dot a frame raises nothing. -/
theorem dots_withinFrame {p : Ppu} (c : Cart) (hs : p.scanline = 0) (hd : p.dot = 0) (k : Nat)
    (hk : k < p.frameLength) : (dots c k p).2 = [] ∧ p.IntoFrame k (dots c k p).1 := by
  induction k with
  | zero => exact ⟨rfl, hs, hd, rfl, rfl⟩
  | succ k ih =>
    obtain ⟨hnone, hin⟩ := ih (by omega)
    have hlen := p.frameLength_range
    have hskip : ¬(dots c k p).1.skipsDot = true := fun h => by
      obtain ⟨hl, hk'⟩ := hin.skipsDot_iff.mp h
      omega
    have hend : ¬((dots c k p).1.dot = 340 ∧ (dots c k p).1.scanline = 261) := by
      rw [hin.dot, hin.scanline]
      omega
    obtain ⟨hdot, hline, hframe, hready⟩ := Ppu.step_moves hskip hend c
    rw [hin.dot] at hdot hline
    rw [hin.scanline] at hline
    have hmask := ((dots c k p).1.step_registers c).1
    refine ⟨?_, ?_, ?_, hframe.trans hin.frame, hmask.trans hin.mask⟩
    · simp only [dots, hready, hnone]
      rfl
    · rw [dots, hline]
      split <;> omega
    · rw [dots, hdot]
      split <;> omega

/-- The whole frame raises frame-ready with its last dot, back at (0, 0). -/
theorem dots_wholeFrame {p : Ppu} (c : Cart) (hs : p.scanline = 0) (hd : p.dot = 0) {n : Nat}
    (hn : p.frameLength = n) :
    (dots c n p).2 = [n] ∧ (dots c n p).1.scanline = 0 ∧ (dots c n p).1.dot = 0 ∧
      (dots c n p).1.frame = p.frame + 1 := by
  have hlen := p.frameLength_range
  obtain ⟨k, rfl⟩ : ∃ k, n = k + 1 := ⟨n - 1, by omega⟩
  obtain ⟨hnone, hin⟩ := dots_withinFrame c hs hd k (by omega)
  have hlast : (dots c k p).1.skipsDot = true ∨ (dots c k p).1.dot = 340 ∧ (dots c k p).1.scanline = 261 := by
    rw [hin.skipsDot_iff, hin.dot, hin.scanline]
    omega
  obtain ⟨hdot, hline, hframe, hready⟩ := Ppu.step_endsFrame hlast c
  refine ⟨?_, hline, hdot, hframe.trans (congrArg (· + 1) hin.frame)⟩
  simp only [dots, hready, hnone]
  rfl

/-- Settles O42: a dot of a frame moves or ends it, and the dots of a whole frame are counted by `dots_wholeFrame`. -/
theorem frameTakes89342Dots : Obligations.FrameTakes89342Dots := by
  refine ⟨fun p c => ?_, fun p c hs hd => ?_⟩
  · intro q skip
    have hskip : p.skipsDot = true ↔ skip = true := p.skipsDot_iff
    by_cases h : skip = true
    · obtain ⟨hdot, hline, -, hready⟩ := Ppu.step_endsFrame (.inl (hskip.mpr h)) c
      rw [if_pos h]
      exact ⟨hdot, hline, hready⟩
    rw [if_neg h]
    by_cases hend : p.dot = 340 ∧ p.scanline = 261
    · rw [if_pos hend]
      exact Ppu.step_endsFrame (.inr hend) c
    rw [if_neg hend]
    have hmove := Ppu.step_moves (h ∘ hskip.mp) hend c
    split
    · next hlast => simpa only [if_pos hlast] using hmove
    · next hlast => simpa only [if_neg hlast] using hmove
  · intro n q
    obtain ⟨hready, hline, hdot, hframe⟩ := dots_wholeFrame c hs hd (n := n) rfl
    exact ⟨hready, hline, hdot, fun _ => hframe⟩

end Sys2Proof.Machine
end

section
/-! Pixels (50_ppu.md R516, R523, R524, R530): what the two pipelines offer in a column, the palette address the
priority rules choose, and the cell of the frame buffer a visible dot writes. -/

namespace Sys2Proof.Machine

/-! The pixel a visible dot writes (R530). -/

theorem paletteAddr_eq {w : Nat} (pal : BitVec w) (pix : BitVec 2) :
    (0x3F00 + 4 * pal.setWidth 14 + pix.setWidth 14 : BitVec 14) =
      BitVec.ofNat 14 (0x3F00 + 4 * pal.toNat + pix.toNat) := by
  rw [BitVec.ofNat_add, BitVec.ofNat_add, BitVec.ofNat_mul, BitVec.ofNat_toNat, BitVec.ofNat_toNat]
  rfl

/-- The priority rules: the sprite shows where it is opaque and the background is transparent or behind it. -/
theorem pixelAddr_eq (bg : BgPixel) (sp : SpritePixel) :
    pixelAddr bg sp =
      BitVec.ofNat 14
        (if bg.pix = 0 ∧ sp.pix = 0 then 0x3F00
        else if bg.pix = 0 ∨ (sp.pix ≠ 0 ∧ sp.behind = false) then 0x3F00 + 4 * sp.pal.toNat + sp.pix.toNat
        else 0x3F00 + 4 * bg.pal.toNat + bg.pix.toNat) := by
  rw [pixelAddr, paletteAddr_eq, paletteAddr_eq]
  by_cases hb : bg.pix = 0
  · by_cases hs : sp.pix = 0
    · simp only [hb, hs, and_self, if_true]
      rfl
    · simp only [hb, hs, and_false, true_or, if_true, if_false]
  · by_cases hs : sp.pix = 0
    · simp only [hb, hs, false_and, ne_eq, not_true, or_self, if_true, if_false]
    · cases h : sp.behind <;>
        simp only [hb, hs, false_and, ne_eq, not_false_eq_true, true_and, Bool.true_eq_false, or_true, or_self, if_true,
          if_false, Bool.false_eq_true]

/-- Greyscale keeps bits 5 and 4 of the six the palette holds. -/
theorem Ppu.colour_toNat (p : Ppu) (c : Cart) (pa : BitVec 14) :
    (p.colour c pa).toNat = (p.busRead c pa).toNat &&& (if p.mask.toNat.testBit 0 then 0x30 else 0x3F) := by
  have hsix : (p.busRead c pa).toNat % 2 ^ 6 = (p.busRead c pa).toNat &&& 0x3F :=
    (Nat.and_two_pow_sub_one_eq_mod _ 6).symm
  rw [Ppu.colour, BitVec.toNat_and, BitVec.toNat_setWidth, hsix, bit_eq_testBit, Nat.and_assoc]
  split <;> rfl

/-- The cell `output_pixel(x)` writes: the emphasis bits over the colour. -/
theorem pixelValue_toNat (mask : Byte) (colour : BitVec 6) :
    (field mask 5 3 ++ colour).toNat = 64 * (mask.toNat / 32) + colour.toNat := by
  have := mask.isLt
  rw [append_toNat, field_toNat]
  omega

theorem Ppu.outputPixel_frameBuffer {p : Ppu} (h : p.frameBuffer.wf = true) (c : Cart) (x : Nat) :
    ((p.outputPixel c x).frameBuffer.read (256 * p.scanline + x)).toNat =
        64 * (p.mask.toNat / 32) + (p.colour c (pixelAddr (p.bgPixel x) (p.spritePixel x))).toNat ∧
      ∀ k : Nat, k ≠ 256 * p.scanline + x → (p.outputPixel c x).frameBuffer.read k = p.frameBuffer.read k := by
  refine ⟨?_, fun k hk => Memory.read_write_other h (Ne.symm hk) _⟩
  rw [← pixelValue_toNat]
  exact congrArg BitVec.toNat (Memory.read_write_same h _ _)

theorem Ppu.zeroHit_eq (p : Ppu) (bg : BgPixel) (sp : SpritePixel) (x : Nat) :
    p.zeroHit bg sp x =
      (sp.zero && decide (bg.pix ≠ 0 ∧ sp.pix ≠ 0 ∧ x ≠ 255) && p.mask.toNat.testBit 3 && p.mask.toNat.testBit 4) := by
  rw [Ppu.zeroHit, bit_eq_testBit, bit_eq_testBit, Bool.eq_iff_iff]
  simp only [Bool.and_eq_true, decide_eq_true_eq]
  tauto

/-- A dot on a visible line has no VBlank boundary. -/
theorem Ppu.vblankDot_visible {p : Ppu} (h : p.scanline ≤ 239) : p.vblankDot = p := by
  obtain ⟨hl, -⟩ | ⟨hl, -⟩ | ⟨-, -, heq⟩ := p.vblankDot_cases
  · omega
  · omega
  · exact heq

/-- A dot that outputs a pixel leaves the frame buffer and the sprite-zero flag of `output_pixel`. -/
theorem Ppu.step_outputs {p : Ppu} (hline : p.scanline ≤ 239) (h1 : 1 ≤ p.dot) (h256 : p.dot ≤ 256) (c : Cart) :
    (p.step c).1.frameBuffer = ((p.renderDot c).outputPixel c (p.dot - 1)).frameBuffer ∧
      (p.step c).1.sprite0Hit = ((p.renderDot c).outputPixel c (p.dot - 1)).sprite0Hit := by
  have hr := p.renderDot_same c
  obtain ⟨-, hhit, -, hfb, -⟩ := p.step_flags c
  have hdrawn : p.drawn c = (p.renderDot c).outputPixel c (p.dot - 1) := by
    rw [Ppu.drawn, Ppu.pixelDot, hr.scanline, hr.dot, if_pos ⟨hline, h1, h256⟩]
  have hvisible : (p.drawn c).scanline ≤ 239 := (p.drawn_kept c).1 ▸ hline
  rw [hfb, hhit, Ppu.vblankDot_visible hvisible, hdrawn]
  exact ⟨rfl, rfl⟩

/-- A dot that outputs no pixel leaves the frame buffer alone, and the sprite-zero flag to the VBlank boundaries. -/
theorem Ppu.step_outputsNothing {p : Ppu} (h : ¬(p.scanline ≤ 239 ∧ 1 ≤ p.dot ∧ p.dot ≤ 256)) (c : Cart) :
    (p.step c).1.frameBuffer = p.frameBuffer ∧
      (p.step c).1.sprite0Hit = (p.sprite0Hit && !decide (p.scanline = 261 ∧ p.dot = 1)) := by
  have hr := p.renderDot_same c
  obtain ⟨-, hhit, -, hfb, -⟩ := p.step_flags c
  have hdrawn : p.drawn c = p.renderDot c := by
    rw [Ppu.drawn, Ppu.pixelDot, hr.scanline, hr.dot, if_neg h]
  rw [hfb, hhit, hdrawn]
  have hv := (p.renderDot c).vblankDot_cases
  rw [hr.scanline, hr.dot] at hv
  obtain ⟨hl, hd, heq⟩ | ⟨hl, hd, heq⟩ | ⟨-, h261, heq⟩ := hv
  · rw [heq]
    exact ⟨hr.frameBuffer, by simp [Ppu.vblankStart, hr.sprite0Hit, hl]⟩
  · rw [heq]
    exact ⟨hr.frameBuffer, by simp [Ppu.vblankEnd, hl, hd]⟩
  · rw [heq]
    exact ⟨hr.frameBuffer, by simp [hr.sprite0Hit, h261]⟩

/-- Settles O43: the cell and the flag of `output_pixel` where a dot has one, else those of the VBlank boundaries. -/
theorem pixelOutput : Obligations.PixelOutput := by
  refine ⟨fun p c hwf hline h1 h256 => ?_, fun p c h => Ppu.step_outputsNothing (by omega) c⟩
  intro x q bg sp pa colour after
  have hr : p.SameOutside q := p.renderDot_same c
  obtain ⟨hfb, hhit⟩ := Ppu.step_outputs hline h1 h256 c
  have hcolour : (q.colour c (pixelAddr bg sp)).toNat = colour := by
    rw [pixelAddr_eq, Ppu.colour_toNat, hr.mask]
  obtain ⟨hcell, hothers⟩ := Ppu.outputPixel_frameBuffer (hr.frameBuffer.symm ▸ hwf) c x
  rw [hr.scanline] at hcell hothers
  rw [hcolour, hr.mask] at hcell
  refine ⟨hfb ▸ hcell, fun k hk => ?_, ?_⟩
  · rw [← hr.frameBuffer, ← hothers k hk]
    exact congrArg (Memory.read · k) hfb
  · rw [← hr.mask, ← hr.sprite0Hit]
    exact hhit.trans (congrArg (q.sprite0Hit || ·) (q.zeroHit_eq bg sp x))

/-! The background pixel (R516). -/

theorem twoBits_toNat (hi lo : Bool) : (BitVec.ofBool hi ++ BitVec.ofBool lo).toNat = 2 * bitNat hi + bitNat lo := by
  rw [append_toNat, ofBool_toNat, ofBool_toNat, Nat.pow_one]

/-- The bits of the shift registers at 15 - fine X. -/
theorem Ppu.bgPixel_shown {p : Ppu} {x : Nat}
    (h : p.mask.toNat.testBit 3 = true ∧ (p.mask.toNat.testBit 1 = true ∨ 8 ≤ x)) :
    (p.bgPixel x).pix.toNat =
        2 * bitNat (p.bg.sHi.toNat.testBit (15 - p.x.toNat)) + bitNat (p.bg.sLo.toNat.testBit (15 - p.x.toNat)) ∧
      (p.bgPixel x).pal.toNat =
        2 * bitNat (p.bg.aHi.toNat.testBit (15 - p.x.toNat)) + bitNat (p.bg.aLo.toNat.testBit (15 - p.x.toNat)) := by
  have hshown : (bit p.mask 3 && (bit p.mask 1 || decide (8 ≤ x))) = true := by
    simpa [bit_eq_testBit] using h
  rw [Ppu.bgPixel, if_pos hshown]
  simp only [twoBits_toNat, bit_eq_testBit, and_self]

theorem Ppu.bgPixel_hidden {p : Ppu} {x : Nat}
    (h : ¬(p.mask.toNat.testBit 3 = true ∧ (p.mask.toNat.testBit 1 = true ∨ 8 ≤ x))) :
    p.bgPixel x = { pix := 0, pal := 0 } := by
  have hhidden : ¬(bit p.mask 3 && (bit p.mask 1 || decide (8 ≤ x))) = true := by
    simpa [bit_eq_testBit] using h
  rw [Ppu.bgPixel, if_neg hhidden]

/-! The sprite pixel (R523). -/

/-- The pattern bits of a slot in a column, by number. -/
def Slot.pattern (x : Nat) (sl : Slot) : Nat :=
  if sl.x.toNat ≤ x ∧ x ≤ sl.x.toNat + 7 then
    2 * bitNat (sl.hi.toNat.testBit (sl.x.toNat + 7 - x)) + bitNat (sl.lo.toNat.testBit (sl.x.toNat + 7 - x))
  else 0

theorem Slot.pixel_toNat (sl : Slot) (x : Nat) : (sl.pixel x).toNat = sl.pattern x := by
  unfold Slot.pixel Slot.pattern
  by_cases h : sl.x.toNat ≤ x ∧ x ≤ sl.x.toNat + 7
  · have hk : 7 - (x - sl.x.toNat) = sl.x.toNat + 7 - x := by omega
    rw [if_pos (by omega), if_pos h]
    simp only [twoBits_toNat, bit_eq_testBit, hk]
  · rw [if_neg (by omega), if_neg h]
    rfl

theorem Slot.pixel_eq_zero_iff (sl : Slot) (x : Nat) : sl.pixel x = 0 ↔ sl.pattern x = 0 := by
  rw [← sl.pixel_toNat, ← BitVec.toNat_inj]
  rfl

/-- The pixel an opaque slot shows; `zero` says whether it holds sprite 0. -/
def Slot.shows (sl : Slot) (x : Nat) (zero : Bool) : SpritePixel :=
  { pix := sl.pixel x, pal := 4 + (field sl.attr 0 2).setWidth 3, behind := bit sl.attr 5, zero := zero }

/-- Without an opaque slot there is no sprite pixel. -/
theorem firstOpaque_eq_none {hasZero : Bool} {x : Nat} {slots : List Slot} (h : ∀ sl ∈ slots, sl.pattern x = 0)
    (i : Nat) : firstOpaque hasZero x i slots = none := by
  induction slots generalizing i with
  | nil => rfl
  | cons sl rest ih =>
    rw [firstOpaque, if_pos ((sl.pixel_eq_zero_iff x).mpr (h sl List.mem_cons_self))]
    exact ih (fun sl' hsl' => h sl' (List.mem_cons_of_mem sl hsl')) (i + 1)

/-- The first opaque slot gives the sprite pixel, whatever follows it. -/
theorem firstOpaque_eq_some {hasZero : Bool} {x : Nat} {slots : List Slot} {j : Nat} {sl : Slot}
    (hj : slots[j]? = some sl) (hopaque : sl.pattern x ≠ 0)
    (hfirst : ∀ (j' : Nat) (sl' : Slot), j' < j → slots[j']? = some sl' → sl'.pattern x = 0) (i : Nat) :
    firstOpaque hasZero x i slots = some (sl.shows x (i + j == 0 && hasZero)) := by
  induction slots generalizing i j with
  | nil => cases hj
  | cons head rest ih =>
    cases j with
    | zero =>
      cases hj
      rw [firstOpaque, if_neg (mt (Slot.pixel_eq_zero_iff _ x).mp hopaque)]
      rfl
    | succ j =>
      rw [firstOpaque, if_pos ((Slot.pixel_eq_zero_iff _ x).mpr (hfirst 0 _ (Nat.succ_pos j) rfl)),
        ih hj (fun j' sl' hlt h => hfirst (j' + 1) sl' (Nat.succ_lt_succ hlt) h), Nat.add_right_comm, Nat.add_assoc]

theorem Slot.shows_pal (sl : Slot) (x : Nat) (zero : Bool) : (sl.shows x zero).pal.toNat = 4 + sl.attr.toNat % 4 := by
  have h : (sl.shows x zero).pal = 4 + (field sl.attr 0 2).setWidth 3 := rfl
  have hfour : (4 : BitVec 3).toNat = 4 := rfl
  rw [h, BitVec.toNat_add, BitVec.toNat_setWidth, field_toNat, hfour]
  omega

theorem Ppu.spritePixel_shown {p : Ppu} {x : Nat}
    (h : p.mask.toNat.testBit 4 = true ∧ (p.mask.toNat.testBit 2 = true ∨ 8 ≤ x)) :
    p.spritePixel x = (firstOpaque p.spr.hasZero x 0 (p.spr.slots.take p.spr.count)).getD SpritePixel.none := by
  have hshown : (bit p.mask 4 && (bit p.mask 2 || decide (8 ≤ x))) = true := by
    simpa [bit_eq_testBit] using h
  rw [Ppu.spritePixel, if_pos hshown]

theorem Ppu.spritePixel_hidden {p : Ppu} {x : Nat}
    (h : ¬(p.mask.toNat.testBit 4 = true ∧ (p.mask.toNat.testBit 2 = true ∨ 8 ≤ x))) :
    p.spritePixel x = SpritePixel.none := by
  have hhidden : ¬(bit p.mask 4 && (bit p.mask 2 || decide (8 ≤ x))) = true := by
    simpa [bit_eq_testBit] using h
  rw [Ppu.spritePixel, if_neg hhidden]

/-- The slots in use, by number. -/
theorem SpriteLine.getElem?_used (l : SpriteLine) (i : Nat) (sl : Slot) :
    (l.slots.take l.count)[i]? = some sl ↔ i < l.count ∧ l.slots[i]? = some sl := by
  rw [List.getElem?_take, Option.ite_none_right_eq_some]

/-- Settles O44: the bits of the shift registers, and the first opaque slot by induction over the slots. -/
theorem pixelSources : Obligations.PixelSources := by
  refine ⟨fun p x => ?_, fun p x => ?_⟩
  · intro k
    split
    · next h => exact Ppu.bgPixel_shown h
    · next h =>
      rw [Ppu.bgPixel_hidden h]
      exact ⟨rfl, rfl⟩
  · intro shown pattern
    refine ⟨fun i sl hshown hi hsl hopaque hfirst => ?_, fun h => ?_⟩
    · have hused := (p.spr.getElem?_used i sl).mpr ⟨hi, hsl⟩
      have hbefore (j : Nat) (sl' : Slot) (hj : j < i) (hsl' : (p.spr.slots.take p.spr.count)[j]? = some sl') :
          sl'.pattern x = 0 :=
        hfirst j sl' hj ((p.spr.getElem?_used j sl').mp hsl').2
      rw [Ppu.spritePixel_shown hshown, firstOpaque_eq_some hused hopaque hbefore, Nat.zero_add]
      exact ⟨sl.pixel_toNat x, sl.shows_pal x _, bit_eq_testBit _ _, rfl⟩
    · by_cases hshown : shown
      · have hclear (sl : Slot) (hsl : sl ∈ p.spr.slots.take p.spr.count) : sl.pattern x = 0 := by
          obtain ⟨i, hi⟩ := List.mem_iff_getElem?.mp hsl
          obtain ⟨hlt, hsl'⟩ := (p.spr.getElem?_used i sl).mp hi
          exact h.resolve_left (not_not_intro hshown) i sl hlt hsl'
        rw [Ppu.spritePixel_shown hshown, firstOpaque_eq_none hclear]
        exact ⟨rfl, rfl⟩
      · rw [Ppu.spritePixel_hidden hshown]
        exact ⟨rfl, rfl⟩

end Sys2Proof.Machine
end

section
/-! The background pipeline (50_ppu.md R510 to R515): the scroll increments and copies by number, and what a dot of a
render line does to `v` and the pipeline. -/

namespace Sys2Proof.Machine

/-! The scroll increments and copies (R510, R512). -/

theorem incX_toNat (v : BitVec 15) :
    (incX v).toNat =
      (if v.toNat % 32 = 31 then 0 else v.toNat % 32 + 1) + 32 * (v.toNat / 32 % 32) +
        1024 * (if v.toNat % 32 = 31 then 1 - v.toNat / 1024 % 2 else v.toNat / 1024 % 2) +
        2048 * (v.toNat / 2048 % 2) + 4096 * (v.toNat / 4096) := by
  have hv := v.isLt
  have hcx : field v 0 5 = 31 ↔ v.toNat % 32 = 31 := by
    rw [← BitVec.toNat_inj, field_toNat]
    simp
  by_cases h : v.toNat % 32 = 31
  · rw [incX, if_pos (hcx.mpr h), if_pos h, if_pos h, setField_toNat (by decide), setField_toNat (by decide),
      BitVec.toNat_not, field_toNat, BitVec.toNat_ofNat]
    omega
  · rw [incX, if_neg (mt hcx.mp h), if_neg h, if_neg h]
    bv_omega

theorem incY_toNat (v : BitVec 15) :
    (incY v).toNat =
      v.toNat % 32 +
        32 *
          (if v.toNat / 4096 < 7 then v.toNat / 32 % 32
          else if v.toNat / 32 % 32 = 29 ∨ v.toNat / 32 % 32 = 31 then 0 else v.toNat / 32 % 32 + 1) +
        1024 * (v.toNat / 1024 % 2) +
        2048 *
          (if v.toNat / 4096 = 7 ∧ v.toNat / 32 % 32 = 29 then 1 - v.toNat / 2048 % 2 else v.toNat / 2048 % 2) +
        4096 * (if v.toNat / 4096 < 7 then v.toNat / 4096 + 1 else 0) := by
  have hv := v.isLt
  have hfy : (field v 12 3).toNat = v.toNat / 4096 := by
    rw [field_toNat]
    omega
  rw [incY, hfy]
  by_cases h7 : v.toNat / 4096 < 7
  · rw [if_pos h7, if_pos h7, if_pos h7, if_neg (by omega)]
    bv_omega
  · have hv1 : (setField v 12 0#3).toNat = v.toNat % 4096 := by
      rw [setField_toNat (by decide), BitVec.toNat_ofNat]
      omega
    have hy : (field (setField v 12 0#3) 5 5).toNat = v.toNat / 32 % 32 := by
      rw [field_toNat, hv1]
      omega
    have h29 : field (setField v 12 0#3) 5 5 = 29 ↔ v.toNat / 32 % 32 = 29 := by
      rw [← BitVec.toNat_inj, hy]
      rfl
    have h31 : field (setField v 12 0#3) 5 5 = 31 ↔ v.toNat / 32 % 32 = 31 := by
      rw [← BitVec.toNat_inj, hy]
      rfl
    rw [if_neg h7, if_neg h7, if_neg h7]
    dsimp only
    by_cases hc29 : v.toNat / 32 % 32 = 29
    · rw [if_pos (h29.mpr hc29), if_pos (.inl hc29), if_pos ⟨by omega, hc29⟩, setField_toNat (by decide),
        setField_toNat (by decide), hv1, BitVec.toNat_not, field_toNat, hv1, BitVec.toNat_ofNat]
      omega
    by_cases hc31 : v.toNat / 32 % 32 = 31
    · rw [if_neg (mt h29.mp hc29), if_pos (h31.mpr hc31), if_pos (.inr hc31), if_neg (hc29 ·.2),
        setField_toNat (by decide), hv1, BitVec.toNat_ofNat]
      omega
    · have hnext : (field (setField v 12 0#3) 5 5 + 1).toNat = v.toNat / 32 % 32 + 1 := by
        rw [BitVec.toNat_add, hy, show (1 : BitVec 5).toNat = 1 from rfl]
        omega
      rw [if_neg (mt h29.mp hc29), if_neg (mt h31.mp hc31), if_neg (not_or.mpr ⟨hc29, hc31⟩), if_neg (hc29 ·.2),
        setField_toNat (by decide), hv1, hnext]
      omega

theorem copyHorizontal_toNat (v t : BitVec 15) :
    (copyHorizontal v t).toNat =
      t.toNat % 32 + 32 * (v.toNat / 32 % 32) + 1024 * (t.toNat / 1024 % 2) + 2048 * (v.toNat / 2048) := by
  have hv := v.isLt
  rw [copyHorizontal, setField_toNat (by decide), setField_toNat (by decide), field_toNat, field_toNat]
  omega

theorem copyVertical_toNat (v t : BitVec 15) :
    (copyVertical v t).toNat =
      v.toNat % 32 + 32 * (t.toNat / 32 % 32) + 1024 * (v.toNat / 1024 % 2) + 2048 * (t.toNat / 2048) := by
  have hv := v.isLt
  have ht := t.isLt
  rw [copyVertical, setField_toNat (by decide), setField_toNat (by decide), field_toNat, field_toNat]
  omega

/-! The addresses of the fetches (R510, R511). -/

theorem nametableAddr_eq (v : BitVec 15) :
    (0x2000 ||| (v.setWidth 14 &&& 0x0FFF) : BitVec 14) = BitVec.ofNat 14 (0x2000 + v.toNat % 4096) := by
  have h : (0x2000 ||| (v.setWidth 14 &&& 0x0FFF) : BitVec 14) = setField 0x2000#14 0 (field v 0 12) := by
    ext i hi
    interval_cases i <;> simp [field, setField]
  apply BitVec.eq_of_toNat_eq
  rw [h, setField_toNat (by decide), field_toNat, BitVec.toNat_ofNat, BitVec.toNat_ofNat]
  omega

theorem attributeAddr_eq (v : BitVec 15) :
    (0x23C0 ||| (v.setWidth 14 &&& 0x0C00) ||| ((v.setWidth 14 >>> 4) &&& 0x38) |||
        ((v.setWidth 14 >>> 2) &&& 0x07) : BitVec 14) =
      BitVec.ofNat 14
        (0x23C0 + 1024 * (v.toNat / 1024 % 4) + 8 * (v.toNat / 32 % 32 / 4) + v.toNat % 32 / 4) := by
  have h : (0x23C0 ||| (v.setWidth 14 &&& 0x0C00) ||| ((v.setWidth 14 >>> 4) &&& 0x38) |||
        ((v.setWidth 14 >>> 2) &&& 0x07) : BitVec 14) =
      setField (setField (setField 0x23C0#14 10 (field v 10 2)) 3 (field v 7 3)) 0 (field v 2 3) := by
    ext i hi
    interval_cases i <;> simp [field, setField]
  apply BitVec.eq_of_toNat_eq
  have hcy : v.toNat / 32 % 32 / 4 = v.toNat / 128 % 8 := by omega
  have hcx : v.toNat % 32 / 4 = v.toNat / 4 % 8 := by omega
  simp (disch := decide) only [h, hcy, hcx, setField_toNat, field_toNat, BitVec.toNat_ofNat, Nat.reducePow,
    Nat.reduceMod, Nat.reduceAdd]
  omega

theorem attributeShift_eq (v : BitVec 15) :
    (((v >>> 4) &&& 4) ||| (v &&& 2)).toNat = 4 * (v.toNat / 32 % 32 / 2 % 2) + 2 * (v.toNat % 32 / 2 % 2) := by
  have h : ((v >>> 4) &&& 4) ||| (v &&& 2) = setField (setField 0#15 2 (field v 6 1)) 1 (field v 1 1) := by
    ext i hi
    interval_cases i <;> simp [field, setField]
  have hcy : v.toNat / 32 % 32 / 2 % 2 = v.toNat / 64 % 2 := by omega
  have hcx : v.toNat % 32 / 2 % 2 = v.toNat / 2 % 2 := by omega
  simp (disch := decide) only [h, hcy, hcx, setField_toNat, field_toNat, BitVec.toNat_ofNat, Nat.reducePow,
    Nat.reduceMod, Nat.reduceAdd]
  omega

theorem Ppu.attributeBits_toNat (p : Ppu) (c : Cart) :
    (p.attributeBits c).toNat =
      (p.busRead c
            (BitVec.ofNat 14
              (0x23C0 + 1024 * (p.v.toNat / 1024 % 4) + 8 * (p.v.toNat / 32 % 32 / 4) + p.v.toNat % 32 / 4))).toNat /
          2 ^ (4 * (p.v.toNat / 32 % 32 / 2 % 2) + 2 * (p.v.toNat % 32 / 2 % 2)) % 4 := by
  rw [Ppu.attributeBits, attributeAddr_eq, attributeShift_eq, BitVec.toNat_setWidth, BitVec.toNat_ushiftRight,
    Nat.shiftRight_eq_div_pow]

theorem Ppu.bgPatternAddr_eq (p : Ppu) :
    p.bgPatternAddr =
      BitVec.ofNat 14
        ((if p.ctrl.toNat.testBit 4 then 0x1000 else 0) + 16 * p.bg.nt.toNat + p.v.toNat / 4096) := by
  have hv := p.v.isLt
  have hfy : (field p.v 12 3).setWidth 14 = BitVec.ofNat 14 (p.v.toNat / 4096) := by
    apply BitVec.eq_of_toNat_eq
    rw [BitVec.toNat_setWidth, field_toNat, BitVec.toNat_ofNat]
    omega
  rw [Ppu.bgPatternAddr, Ppu.bgTable, hfy, bit_eq_testBit, BitVec.ofNat_add, BitVec.ofNat_add, BitVec.ofNat_mul,
    BitVec.ofNat_toNat]
  split <;> rfl

/-! The shift registers (R513, R514). -/

theorem shiftLeft_one_toNat (r : BitVec 16) : (r <<< 1).toNat = 2 * r.toNat % 65536 := by
  rw [BitVec.toNat_shiftLeft, Nat.shiftLeft_eq, Nat.mul_comm]

theorem setField_low_toNat (r : BitVec 16) (low : Byte) :
    (setField r 0 low).toNat = r.toNat / 256 * 256 + low.toNat := by
  rw [setField_toNat (by decide)]
  omega

theorem attributeFill_toNat (attr : BitVec 2) :
    (attributeFill (bit attr 0)).toNat = 255 * (attr.toNat % 2) ∧
      (attributeFill (bit attr 1)).toNat = 255 * (attr.toNat / 2) := by
  revert attr
  decide

/-- The shift registers of a fetching dot, shifted and, where `reload` says so, reloaded. -/
theorem Background.shiftRegisters_toNat (b : Background) (reload : Prop) [Decidable reload] :
    let b' := if reload then b.shift.load else b.shift
    let next (r : BitVec 16) (low : Nat) : Nat :=
      if reload then 2 * r.toNat % 65536 / 256 * 256 + low else 2 * r.toNat % 65536
    b'.sLo.toNat = next b.sLo b.lo.toNat ∧ b'.sHi.toNat = next b.sHi b.hi.toNat ∧
      b'.aLo.toNat = next b.aLo (255 * (b.attr.toNat % 2)) ∧ b'.aHi.toNat = next b.aHi (255 * (b.attr.toNat / 2)) := by
  obtain ⟨hlo, hhi⟩ := attributeFill_toNat b.attr
  by_cases h : reload
  · simp only [if_pos h, Background.shift, Background.load, setField_low_toNat, shiftLeft_one_toNat, hlo, hhi, and_self]
  · simp only [if_neg h, Background.shift, shiftLeft_one_toNat, and_self]

/-- Loading the shift registers twice is loading them once, whatever is fetched between. -/
theorem Background.load_load (b : Background) (nt : Byte) :
    Background.load { b.load with nt := nt } = { b.load with nt := nt } := by
  have h {r : BitVec 16} {low : Byte} : setField (setField r 0 low) 0 low = setField r 0 low := by
    apply BitVec.eq_of_toNat_eq
    have := low.isLt
    rw [setField_low_toNat, setField_low_toNat]
    omega
  simp only [Background.load, h]

/-! A dot of a render line with rendering on (R510). -/

theorem fetchingDot_iff (d : Nat) : fetchingDot d = true ↔ (2 ≤ d ∧ d ≤ 257) ∨ (321 ≤ d ∧ d ≤ 337) := by
  simp [fetchingDot]

/-- The pipeline after a fetching dot: shifted, at phase 0 reloaded, and one of its bytes fetched. -/
theorem Ppu.bgFetchDot_bg (p : Ppu) (c : Cart) :
    (p.bgFetchDot c).bg =
      { (if (p.dot - 1) % 8 = 0 then p.bg.shift.load else p.bg.shift) with
        nt := if (p.dot - 1) % 8 = 0 then p.busRead c (0x2000 ||| (p.v.setWidth 14 &&& 0x0FFF)) else p.bg.nt
        attr := if (p.dot - 1) % 8 = 2 then p.attributeBits c else p.bg.attr
        lo := if (p.dot - 1) % 8 = 4 then p.busRead c p.bgPatternAddr else p.bg.lo
        hi := if (p.dot - 1) % 8 = 6 then p.busRead c (p.bgPatternAddr + 8) else p.bg.hi } := by
  unfold Ppu.bgFetchDot
  dsimp only
  split
  · next h => simp only [h]; rfl
  · next h => simp only [h]; rfl
  · next h => simp only [h]; rfl
  · next h => simp only [h]; rfl
  · next h => simp only [h]; rfl
  · next h0 h2 h4 h6 h7 => simp only [if_neg h0, if_neg h2, if_neg h4, if_neg h6]; rfl

/-- The bytes a fetching dot fetches, from their addresses by number (R510, R511). -/
theorem Ppu.bgFetchDot_bytes (p : Ppu) (c : Cart) :
    let phase := (p.dot - 1) % 8
    let n := p.v.toNat
    let row := (if p.ctrl.toNat.testBit 4 then 0x1000 else 0) + 16 * p.bg.nt.toNat + n / 4096
    let read (a : Nat) : Byte := p.busRead c (BitVec.ofNat 14 a)
    (p.bgFetchDot c).bg.nt = (if phase = 0 then read (0x2000 + n % 4096) else p.bg.nt) ∧
      (p.bgFetchDot c).bg.attr.toNat =
        (if phase = 2 then
          (read (0x23C0 + 1024 * (n / 1024 % 4) + 8 * (n / 32 % 32 / 4) + n % 32 / 4)).toNat /
            2 ^ (4 * (n / 32 % 32 / 2 % 2) + 2 * (n % 32 / 2 % 2)) % 4
        else p.bg.attr.toNat) ∧
      (p.bgFetchDot c).bg.lo = (if phase = 4 then read row else p.bg.lo) ∧
      (p.bgFetchDot c).bg.hi = (if phase = 6 then read (row + 8) else p.bg.hi) := by
  intro phase n row read
  rw [p.bgFetchDot_bg c, nametableAddr_eq, p.bgPatternAddr_eq]
  refine ⟨rfl, ?_, rfl, ?_⟩
  · rw [← p.attributeBits_toNat c]
    exact apply_ite BitVec.toNat _ _ _
  · exact congrArg (fun a => if phase = 6 then p.busRead c a else p.bg.hi) (BitVec.ofNat_add row 8).symm

/-- At phase 0 of the schedule the shift registers are reloaded and the nametable byte fetched. -/
theorem Ppu.bgFetchDot_reloads (p : Ppu) (c : Cart) (h : (p.dot - 1) % 8 = 0) :
    ∃ nt, (p.bgFetchDot c).bg = { p.bg.shift.load with nt := nt } := by
  refine ⟨p.busRead c (0x2000 ||| (p.v.setWidth 14 &&& 0x0FFF)), ?_⟩
  rw [p.bgFetchDot_bg c]
  simp only [h]
  rfl

theorem Ppu.bgFetchDot_v (p : Ppu) (c : Cart) :
    (p.bgFetchDot c).v = if (p.dot - 1) % 8 = 7 then incX p.v else p.v := by
  unfold Ppu.bgFetchDot
  dsimp only
  split
  · next h => simp only [h]; rfl
  · next h => simp only [h]; rfl
  · next h => simp only [h]; rfl
  · next h => simp only [h]; rfl
  · next h => simp only [h]; rfl
  · next h0 h2 h4 h6 h7 => rw [if_neg h7]

/-- The scroll updates do nothing to the pipeline a fetching dot leaves: dot 257 reloads what it has just loaded. -/
theorem Ppu.backgroundDot_bg (p : Ppu) (c : Cart) :
    (p.backgroundDot c).bg = if fetchingDot p.dot then (p.bgFetchDot c).bg else p.bg := by
  have hdot := (p.bgFetchDot_same c).dot
  by_cases h257 : p.dot = 257
  · have hf : fetchingDot p.dot = true := by rw [h257]; rfl
    obtain ⟨nt, hb⟩ := p.bgFetchDot_reloads c (by omega)
    rw [Ppu.backgroundDot, if_pos hf, if_pos hf, Ppu.bgScrollDot, hdot, if_neg (by omega), if_pos h257]
    dsimp only
    rw [hb]
    exact Background.load_load _ _
  · have hscroll (q : Ppu) (hq : q.dot = p.dot) : q.bgScrollDot.bg = q.bg := by
      unfold Ppu.bgScrollDot
      rw [hq, if_neg h257]
      split_ifs <;> rfl
    rw [Ppu.backgroundDot]
    split
    · exact hscroll _ hdot
    · exact hscroll p rfl

theorem Ppu.backgroundDot_v (p : Ppu) (c : Cart) :
    (p.backgroundDot c).v =
      if p.dot = 256 then incY (incX p.v)
      else if p.dot = 257 then copyHorizontal p.v p.t
      else if p.scanline = 261 ∧ 280 ≤ p.dot ∧ p.dot ≤ 304 then copyVertical p.v p.t
      else if fetchingDot p.dot = true ∧ (p.dot - 1) % 8 = 7 then incX p.v
      else p.v := by
  have hs := p.bgFetchDot_same c
  have hfetch : (p.backgroundDot c).v =
      let u := if fetchingDot p.dot = true ∧ (p.dot - 1) % 8 = 7 then incX p.v else p.v
      if p.dot = 256 then incY u
      else if p.dot = 257 then copyHorizontal u p.t
      else if p.scanline = 261 ∧ 280 ≤ p.dot ∧ p.dot ≤ 304 then copyVertical u p.t
      else u := by
    by_cases hf : fetchingDot p.dot = true
    · rw [Ppu.backgroundDot, if_pos hf, Ppu.bgScrollDot, hs.dot, hs.scanline, hs.t, p.bgFetchDot_v c]
      simp only [hf, true_and, apply_ite Ppu.v, p.bgFetchDot_v c]
    · rw [Ppu.backgroundDot, if_neg hf, Ppu.bgScrollDot]
      simp only [hf, false_and, if_false, apply_ite Ppu.v, Bool.false_eq_true]
  rw [hfetch]
  dsimp only
  by_cases h256 : p.dot = 256
  · rw [if_pos h256, if_pos h256, if_pos ⟨(fetchingDot_iff _).mpr (by omega), by omega⟩]
  rw [if_neg h256, if_neg h256]
  by_cases h257 : p.dot = 257
  · rw [if_pos h257, if_pos h257, if_neg (by omega)]
  rw [if_neg h257, if_neg h257]
  by_cases hvert : p.scanline = 261 ∧ 280 ≤ p.dot ∧ p.dot ≤ 304
  · have hidle : ¬fetchingDot p.dot = true := fun h => by
      have := (fetchingDot_iff _).mp h
      omega
    rw [if_pos hvert, if_pos hvert, if_neg fun h => hidle h.1]
  rw [if_neg hvert, if_neg hvert]

theorem Ppu.renderDot_active {p : Ppu} (hr : p.rendering = true) (hl : p.renderLine = true) (c : Cart) :
    p.renderDot c = (p.backgroundDot c).spriteDot c := by
  rw [Ppu.renderDot, hr, hl]
  rfl

/-- With rendering on, a dot of a render line leaves the pipeline and `v` of `background_dot()`. -/
theorem Ppu.step_background {p : Ppu} (hr : p.rendering = true) (hl : p.renderLine = true) (c : Cart) :
    (p.step c).1.bg = (p.backgroundDot c).bg ∧ (p.step c).1.v = (p.backgroundDot c).v := by
  obtain ⟨hbg, hv, -, -⟩ := p.step_pipelines c
  obtain ⟨hbg', hv'⟩ := (p.backgroundDot c).spriteDot_background c
  rw [hbg, hv, Ppu.renderDot_active hr hl]
  exact ⟨hbg', hv'⟩

/-- With rendering off or outside the render lines, the rendering of a dot clears the sprite line or does nothing
(R500). -/
theorem Ppu.renderDot_idle {p : Ppu} (h : p.rendering = false ∨ p.renderLine = false) (c : Cart) :
    p.renderDot c = if p.renderLine = true ∧ p.dot = 257 then p.clearSprites else p := by
  have hoff : ¬(p.rendering && p.renderLine) = true := by
    rcases h with h | h <;> simp [h]
  rw [Ppu.renderDot, if_neg hoff]
  simp only [Bool.and_eq_true, beq_iff_eq]

/-- An idle dot (R515): no scroll, no fetch, no shift, no evaluation. -/
theorem Ppu.step_idle {p : Ppu} (h : p.rendering = false ∨ p.renderLine = false) (c : Cart) :
    (p.step c).1.v = p.v ∧ (p.step c).1.bg = p.bg ∧ (p.step c).1.oamAddr = p.oamAddr ∧
      (p.step c).1.spr.slots = p.spr.slots ∧ (p.step c).1.t = p.t := by
  obtain ⟨hbg, hv, hspr, hoam⟩ := p.step_pipelines c
  obtain ⟨-, -, ht⟩ := p.step_kept c
  rw [hbg, hv, hspr, hoam, ht, Ppu.renderDot_idle h]
  split <;> exact ⟨rfl, rfl, rfl, rfl, rfl⟩

/-- Settles O45: the increments by number, then a fetching dot, the chain of scroll updates, and `step_idle`. -/
theorem scrollIncrements : Obligations.ScrollIncrements := by
  refine ⟨fun v => ⟨incX_toNat v, incY_toNat v⟩, fun p c hr hl => ?_, fun p c h => Ppu.step_idle h c⟩
  intro q d fetches phase n cx cy table row read shifted
  obtain ⟨hbg, hv⟩ := Ppu.step_background hr hl c
  have hfetches : fetchingDot p.dot = true ↔ fetches := fetchingDot_iff p.dot
  rw [p.backgroundDot_bg c] at hbg
  rw [p.backgroundDot_v c] at hv
  have hpipeline :
      q.bg.sLo.toNat = shifted p.bg.sLo p.bg.lo.toNat ∧ q.bg.sHi.toNat = shifted p.bg.sHi p.bg.hi.toNat ∧
        q.bg.aLo.toNat = shifted p.bg.aLo (255 * (p.bg.attr.toNat % 2)) ∧
        q.bg.aHi.toNat = shifted p.bg.aHi (255 * (p.bg.attr.toNat / 2)) := by
    by_cases hf : fetches
    · obtain ⟨hsLo, hsHi, haLo, haHi⟩ := p.bg.shiftRegisters_toNat ((p.dot - 1) % 8 = 0)
      rw [hbg, if_pos (hfetches.mpr hf), p.bgFetchDot_bg c]
      exact ⟨hsLo.trans (if_pos hf).symm, hsHi.trans (if_pos hf).symm, haLo.trans (if_pos hf).symm,
        haHi.trans (if_pos hf).symm⟩
    · rw [hbg, if_neg (mt hfetches.mp hf)]
      exact ⟨(if_neg hf).symm, (if_neg hf).symm, (if_neg hf).symm, (if_neg hf).symm⟩
  obtain ⟨hsLo, hsHi, haLo, haHi⟩ := hpipeline
  refine ⟨hsLo, hsHi, haLo, haHi, ?nt, ?attr, ?lo, ?hi, ?v⟩
  case v =>
    split
    · next h => exact hv.trans (if_pos h)
    next h =>
    replace hv := hv.trans (if_neg h)
    split
    · next h => exact (congrArg BitVec.toNat (hv.trans (if_pos h))).trans (copyHorizontal_toNat p.v p.t)
    next h =>
    replace hv := hv.trans (if_neg h)
    split
    · next h => exact (congrArg BitVec.toNat (hv.trans (if_pos h))).trans (copyVertical_toNat p.v p.t)
    next h =>
    exact (hv.trans (if_neg h)).trans (if_congr (and_congr_left' hfetches) rfl rfl)
  all_goals
    by_cases hf : fetches
    swap
    · rw [hbg, if_neg (mt hfetches.mp hf)]
      exact (if_neg fun h => hf h.1).symm
    obtain ⟨hnt, hattr, hlo, hhi⟩ := p.bgFetchDot_bytes c
    have hphase (k : Nat) : phase = k ↔ fetches ∧ phase = k := (and_iff_right hf).symm
    rw [hbg, if_pos (hfetches.mpr hf)]
  · exact hnt.trans (if_congr (hphase 0) rfl rfl)
  · exact hattr.trans (if_congr (hphase 2) rfl rfl)
  · exact hlo.trans (if_congr (hphase 4) rfl rfl)
  · exact hhi.trans (if_congr (hphase 6) rfl rfl)

end Sys2Proof.Machine
end

section
/-! Sprites (50_ppu.md R520 to R522): evaluation and pattern fetch at dot 257 of a line with rendering on, by the
numbers of OAM, and what every other dot leaves alone. -/

namespace Sys2Proof.Machine

/-! Evaluation (R521). -/

/-- Whether sprite `n` is in range of the PPU's line. -/
def Ppu.showsSprite (p : Ppu) (n : Nat) : Bool :=
  decide ((p.oam.read (4 * n)).toNat ≤ p.scanline ∧ p.scanline - (p.oam.read (4 * n)).toNat < p.spriteHeight)

/-- The sprites in range of the PPU's line, by number in OAM order. -/
def Ppu.found (p : Ppu) : List Nat := (List.range 64).filter p.showsSprite

/-- Sprite `n` with its row on the PPU's line. -/
def Ppu.rowOf (p : Ppu) (n : Nat) : InRange := { n := n, row := p.scanline - (p.oam.read (4 * n)).toNat }

theorem Ppu.spriteInRange_eq (p : Ppu) (n : Nat) :
    p.spriteInRange p.scanline n = if p.showsSprite n then some (p.rowOf n) else none := by
  simp only [Ppu.spriteInRange, Ppu.showsSprite, decide_eq_true_eq]
  rfl

theorem Ppu.spritesInRange_eq (p : Ppu) : p.spritesInRange p.scanline = p.found.map p.rowOf := by
  have h : p.spriteInRange p.scanline = fun n => if p.showsSprite n then some (p.rowOf n) else none :=
    funext p.spriteInRange_eq
  rw [Ppu.spritesInRange, Ppu.found, h]
  generalize List.range 64 = sprites
  induction sprites with
  | nil => rfl
  | cons n rest ih => cases hn : p.showsSprite n <;> simp [hn, ih]

/-- A sprite found has a row within its height. -/
theorem Ppu.row_lt_of_mem_found {p : Ppu} {n : Nat} (h : n ∈ p.found) : (p.rowOf n).row < p.spriteHeight :=
  (of_decide_eq_true (List.mem_filter.mp h).2).2

/-- What an evaluation leaves: the first eight sprites found fill the slots, a ninth sets the overflow flag. -/
theorem Ppu.evaluateSprites_spec (p : Ppu) (c : Cart) :
    (p.evaluateSprites c).spr.count = min 8 p.found.length ∧
      (p.evaluateSprites c).spr.hasZero = decide (0 ∈ p.found.take 8) ∧
      (p.evaluateSprites c).spriteOverflow = (p.spriteOverflow || decide (8 < p.found.length)) ∧
      ∀ k n : Nat, (p.found.take 8)[k]? = some n →
        (p.evaluateSprites c).spr.slots[k]? = some (p.fetchSprite c (p.rowOf n)) := by
  have hchosen : (p.spritesInRange p.scanline).take 8 = (p.found.take 8).map p.rowOf := by
    rw [p.spritesInRange_eq, List.map_take]
  simp only [Ppu.evaluateSprites, hchosen]
  refine ⟨?_, ?_, ?_, fun k n h => ?_⟩
  · rw [List.length_map, List.length_take]
  · rw [List.any_map, Bool.eq_iff_iff, List.any_eq_true, decide_eq_true_eq]
    simp [Ppu.rowOf]
  · rw [p.spritesInRange_eq, List.length_map]
  · rw [List.map_map, List.getElem?_append_left, List.getElem?_map, h]
    · rfl
    · rw [List.length_map]
      exact (List.getElem?_eq_some_iff.mp h).1

/-! The pattern fetch (R522). -/

theorem evenTile_toNat (tile : Byte) : (tile &&& 0xFE).toNat = tile.toNat - tile.toNat % 2 := by
  revert tile
  decide +kernel

/-- The address of a sprite's row in the pattern tables, by number. -/
def Ppu.patternAddrOf (p : Ppu) (e : InRange) : Nat :=
  let tile := (p.oam.read (4 * e.n + 1)).toNat
  let r := if (p.oam.read (4 * e.n + 2)).toNat.testBit 7 then p.spriteHeight - 1 - e.row else e.row
  if p.spriteHeight = 16 then 0x1000 * (tile % 2) + 16 * (tile - tile % 2 + r / 8) + r % 8
  else (if p.ctrl.toNat.testBit 3 then 0x1000 else 0) + 16 * tile + r

theorem Ppu.spritePatternAddr_eq {p : Ppu} {e : InRange} (h : e.row < p.spriteHeight) :
    p.spritePatternAddr e = p.patternAddrOf e := by
  unfold Ppu.spritePatternAddr Ppu.patternAddrOf Ppu.oamByte
  unfold Ppu.spriteHeight at h ⊢
  by_cases htall : bit p.ctrl 5 = true
  · have hrow : e.row < 16 := by rwa [if_pos htall] at h
    simp only [htall, if_true, bit_zero, evenTile_toNat, decide_eq_true_eq, Nat.reduceSub]
    rw [bit_eq_testBit]
    split_ifs <;> omega
  · simp only [htall, if_false, Ppu.spriteTable, bit_eq_testBit, Nat.reduceSub, Nat.reduceEqDiff, Bool.false_eq_true]

/-- The slot of a sprite in range, its planes at the two addresses by number. -/
theorem Ppu.fetchSprite_eq {p : Ppu} {e : InRange} (h : e.row < p.spriteHeight) (c : Cart) :
    let attr := p.oam.read (4 * e.n + 2)
    let plane (a : Nat) : Byte :=
      let b := p.busRead c (BitVec.ofNat 14 a)
      if attr.toNat.testBit 6 then b.reverse else b
    p.fetchSprite c e =
      { x := p.oam.read (4 * e.n + 3), attr := attr, lo := plane (p.patternAddrOf e)
        hi := plane (p.patternAddrOf e + 8) } := by
  have hhigh : BitVec.ofNat 14 (p.patternAddrOf e) + 8 = BitVec.ofNat 14 (p.patternAddrOf e + 8) :=
    (BitVec.ofNat_add _ 8).symm
  simp only [Ppu.fetchSprite, Ppu.spritePatternAddr_eq h, hhigh, Ppu.oamByte, flipPlane, bit_eq_testBit]

/-! Dot 257 and the others (R520). -/

/-- A read depends on the nametables and the palette alone. -/
theorem Ppu.busRead_congr {p q : Ppu} (h : p.SameOutside q) (c : Cart) (a : BitVec 14) :
    q.busRead c a = p.busRead c a := by
  simp only [Ppu.busRead, h.ciram, h.palette]

theorem Ppu.found_congr {p q : Ppu} (h : p.SameOutside q) : q.found = p.found := by
  unfold Ppu.found Ppu.showsSprite Ppu.spriteHeight
  rw [h.oam, h.scanline, h.ctrl]

theorem Ppu.rowOf_congr {p q : Ppu} (h : p.SameOutside q) (n : Nat) : q.rowOf n = p.rowOf n := by
  rw [Ppu.rowOf, Ppu.rowOf, h.oam, h.scanline]

theorem Ppu.fetchSprite_congr {p q : Ppu} (h : p.SameOutside q) (c : Cart) (e : InRange) :
    q.fetchSprite c e = p.fetchSprite c e := by
  unfold Ppu.fetchSprite Ppu.spritePatternAddr Ppu.spriteTable Ppu.oamByte
  simp only [h.oam, h.ctrl, Ppu.busRead_congr h]

/-- The PPU as `sprite_dot()` evaluates it at dot 257: after the background, the OAM address cleared. -/
def Ppu.evaluated (p : Ppu) (c : Cart) : Ppu := { p.backgroundDot c with oamAddr := 0x00 }

theorem Ppu.evaluated_same (p : Ppu) (c : Cart) : p.SameOutside (p.evaluated c) :=
  (p.backgroundDot_same c).trans (by constructor <;> rfl)

theorem Ppu.renderDot_sprites {p : Ppu} (hr : p.rendering = true) (hl : p.renderLine = true) (hd : p.dot = 257)
    (c : Cart) :
    p.renderDot c =
      if p.scanline = 261 then (p.evaluated c).clearSprites else (p.evaluated c).evaluateSprites c := by
  have hb := p.backgroundDot_same c
  rw [Ppu.renderDot_active hr hl, Ppu.spriteDot, if_pos (hb.dot.trans hd), ← (p.evaluated_same c).scanline]
  rfl

/-- Away from dot 257 of the render lines the rendering leaves the sprites alone. -/
theorem Ppu.renderDot_noSprites {p : Ppu} (h : p.dot ≠ 257 ∨ p.renderLine = false) (c : Cart) :
    (p.renderDot c).spr = p.spr ∧ (p.renderDot c).oamAddr = p.oamAddr ∧
      (p.renderDot c).spriteOverflow = p.spriteOverflow := by
  by_cases hactive : p.rendering = true ∧ p.renderLine = true
  · obtain ⟨hr, hl⟩ := hactive
    have hd : p.dot ≠ 257 := h.resolve_right (by simp [hl])
    rw [Ppu.renderDot_active hr hl, Ppu.spriteDot, (p.backgroundDot_same c).dot, if_neg hd]
    exact p.backgroundDot_sprites c
  · have hidle : p.rendering = false ∨ p.renderLine = false := by
      simpa only [not_and_or, Bool.not_eq_true] using hactive
    have hd : ¬(p.renderLine = true ∧ p.dot = 257) := fun h' => by simp [h'.1, h'.2] at h
    rw [Ppu.renderDot_idle hidle, if_neg hd]
    exact ⟨rfl, rfl, rfl⟩

/-- The overflow flag after a dot is that of its rendering, which only the end of VBlank clears (R502). -/
theorem Ppu.step_spriteOverflow (p : Ppu) (c : Cart) :
    (p.step c).1.spriteOverflow = ((p.renderDot c).spriteOverflow && !decide (p.scanline = 261 ∧ p.dot = 1)) := by
  obtain ⟨-, -, hovf, -, -⟩ := p.step_flags c
  obtain ⟨hs, hd, -⟩ := p.drawn_kept c
  have hdrawn : (p.drawn c).spriteOverflow = (p.renderDot c).spriteOverflow := by
    obtain ⟨hit, fb, h⟩ := (p.renderDot c).pixelDot_kept c
    rw [Ppu.drawn, h]
  have hv := (p.drawn c).vblankDot_cases
  rw [hs, hd] at hv
  rw [hovf]
  obtain ⟨hl, -, h⟩ | ⟨hl, hp, h⟩ | ⟨-, h261, h⟩ := hv
  · rw [h]
    simp [Ppu.vblankStart, hdrawn, hl]
  · rw [h]
    simp [Ppu.vblankEnd, hl, hp]
  · rw [h]
    simp [hdrawn, h261]

/-- Settles O46: the evaluation by the numbers of OAM, after a background part that changes none of them. -/
theorem spriteEvaluation : Obligations.SpriteEvaluation := by
  refine ⟨fun p c hr hd hl => ?preRender, fun p c hr hd hl => ?off, fun p c hr hd hl => ?visible, fun p c h => ?other⟩
  all_goals obtain ⟨-, -, hspr, hoam⟩ := p.step_pipelines c
  case preRender =>
    have hline : p.renderLine = true := by simp [Ppu.renderLine, hl]
    rw [hspr, hoam, Ppu.renderDot_sprites hr hline hd, if_pos hl]
    exact ⟨rfl, rfl, rfl⟩
  case off =>
    rw [hspr, hoam, Ppu.renderDot_idle (.inl hr), if_pos ⟨hl, hd⟩]
    exact ⟨rfl, rfl, rfl⟩
  case visible =>
    intro height y found q
    have hline : p.renderLine = true := by simp [Ppu.renderLine, hl]
    have hsame := p.evaluated_same c
    have hrender : p.renderDot c = (p.evaluated c).evaluateSprites c := by
      rw [Ppu.renderDot_sprites hr hline hd, if_neg (by omega)]
    have hovf := p.step_spriteOverflow c
    obtain ⟨hcount, hzero, hover, hslots⟩ := (p.evaluated c).evaluateSprites_spec c
    rw [Ppu.found_congr hsame] at hcount hzero hover hslots
    have hheight : p.spriteHeight = height := by rw [Ppu.spriteHeight, bit_eq_testBit]
    have hfound : p.found = found := by
      unfold Ppu.found Ppu.showsSprite
      rw [hheight]
    rw [hfound] at hcount hzero hover hslots
    rw [hrender] at hspr hoam hovf
    refine ⟨hoam, hspr ▸ hcount, hspr ▸ hzero, ?_, fun k n hk => ?_⟩
    · obtain ⟨-, -, hbefore⟩ : _ ∧ _ ∧ (p.evaluated c).spriteOverflow = p.spriteOverflow := p.backgroundDot_sprites c
      have hvisible : p.scanline ≠ 261 := by omega
      rw [hovf, hover, hbefore]
      simp [hvisible]
    · intro tile attr row r addr plane
      have hmem : n ∈ p.found := hfound ▸ List.mem_of_mem_take (List.mem_of_getElem? hk)
      have haddr : p.patternAddrOf (p.rowOf n) = addr := by
        unfold Ppu.patternAddrOf
        rw [hheight]
        rfl
      rw [hspr, hslots k n hk, Ppu.fetchSprite_congr hsame, Ppu.rowOf_congr hsame,
        Ppu.fetchSprite_eq (Ppu.row_lt_of_mem_found hmem), haddr]
      rfl
  case other =>
    obtain ⟨hspr', hoam', hovf'⟩ := Ppu.renderDot_noSprites h c
    rw [hspr, hoam, hspr', hoam', p.step_spriteOverflow c, hovf', Bool.and_eq_true]
    exact ⟨rfl, rfl, And.left⟩

end Sys2Proof.Machine
end

section
/-! The cartridge (51_cartridge.md R556, R565 to R571): its CPU window by address, and what of it is fixed after `load`.
One bus
write keeps the ROM, so a sequence of accesses does, and so does a step. -/

namespace Sys2Proof.Machine

/-! What is fixed (R556). -/

/-- `d` is `c` but for PRG RAM, CHR RAM, the four-screen memory, and the bank register of the mapper that has one. -/
structure Cart.SameRom (c d : Cart) : Prop where
  prgRom : d.prgRom = c.prgRom
  prgBanks : d.prgBanks = c.prgBanks
  mapper : d.mapper = c.mapper
  mirroring : d.mirroring = c.mirroring
  chrIsRam : d.chrIsRam = c.chrIsRam
  chrBanks : d.chrBanks = c.chrBanks
  chr : c.chrIsRam = false → d.chr = c.chr
  prgBank : c.mapper ≠ .uxrom → d.prgBank = c.prgBank
  chrBank : c.mapper ≠ .cnrom → d.chrBank = c.chrBank

theorem Cart.SameRom.refl (c : Cart) : c.SameRom c :=
  ⟨rfl, rfl, rfl, rfl, rfl, rfl, fun _ => rfl, fun _ => rfl, fun _ => rfl⟩

theorem Cart.SameRom.trans {c d e : Cart} (h : c.SameRom d) (h' : d.SameRom e) : c.SameRom e where
  prgRom := h'.prgRom.trans h.prgRom
  prgBanks := h'.prgBanks.trans h.prgBanks
  mapper := h'.mapper.trans h.mapper
  mirroring := h'.mirroring.trans h.mirroring
  chrIsRam := h'.chrIsRam.trans h.chrIsRam
  chrBanks := h'.chrBanks.trans h.chrBanks
  chr hrom := (h'.chr (h.chrIsRam.trans hrom)).trans (h.chr hrom)
  prgBank hm := (h'.prgBank (h.mapper.symm ▸ hm)).trans (h.prgBank hm)
  chrBank hm := (h'.chrBank (h.mapper.symm ▸ hm)).trans (h.chrBank hm)

/-- A write to the CPU window reaches PRG RAM and the register of the mapper (R568 to R571). -/
theorem Cart.cpuWrite_sameRom (c : Cart) (a : Word) (v : Byte) : c.SameRom (c.cpuWrite a v) := by
  unfold Cart.cpuWrite
  split_ifs
  · exact .refl c
  · exact { Cart.SameRom.refl c with }
  · split
    · exact .refl c
    · next hm => exact { Cart.SameRom.refl c with prgBank := fun h => absurd hm h }
    · next hm => exact { Cart.SameRom.refl c with chrBank := fun h => absurd hm h }

/-- A write to the pattern tables reaches CHR RAM only (R577). -/
theorem Cart.ppuWrite_sameRom (c : Cart) (a : Nat) (v : Byte) : c.SameRom (c.ppuWrite a v) := by
  unfold Cart.ppuWrite
  split
  · next hram => exact { Cart.SameRom.refl c with chr := fun hrom => by simp [hram] at hrom }
  · exact .refl c

theorem Ppu.busWrite_sameRom (p : Ppu) (c : Cart) (a : BitVec 14) (v : Byte) : c.SameRom (p.busWrite c a v).2 := by
  unfold Ppu.busWrite
  split
  · exact c.ppuWrite_sameRom _ v
  all_goals exact { Cart.SameRom.refl c with }

/-- Of the PPU registers PPUDATA alone reaches the cartridge. -/
theorem Ppu.regWrite_sameRom (p : Ppu) (c : Cart) (r : BitVec 3) (v : Byte) : c.SameRom (p.regWrite c r v).2 := by
  unfold Ppu.regWrite
  split_ifs
  iterate 7 exact .refl c
  exact p.busWrite_sameRom c (p.v.setWidth 14) v

theorem cpuWrite_sameRom (a : Word) (v : Byte) (s : State) : s.cart.SameRom (cpuWrite a v s).cart := by
  unfold cpuWrite
  cases region a with
  | ppuReg r => exact s.ppu.regWrite_sameRom s.cart r v
  | oamDma =>
    obtain ⟨-, -, hcart, -⟩ := dmaCopy_kept v 256 s
    exact hcart.symm ▸ Cart.SameRom.refl s.cart
  | cart => exact s.cart.cpuWrite_sameRom a v
  | _ => exact .refl s.cart

theorem Accesses.sameRom {s t : State} (h : Accesses s t) : s.cart.SameRom t.cart := by
  refine h.keeps (P := fun u => s.cart.SameRom u.cart) (.refl s.cart) ?read ?write ?regs
  case read => exact fun u a hu => (cpuRead_cart_kept a u).symm ▸ hu
  case write => exact fun u a v hu => hu.trans (cpuWrite_sameRom a v u)
  case regs => exact fun _ _ _ hu => hu

/-- A drain reads the cartridge and leaves it alone (50_ppu.md R500). -/
theorem drain_cart (s : State) : (drain s).1.cart = s.cart := by
  obtain ⟨p, y, h⟩ := drain_kept s
  rw [h]

theorem cpuAction_sameRom {s t : State} (h : cpuAction s = .next t) : s.cart.SameRom t.cart := by
  obtain ⟨u, y, hu, hacc, -⟩ := cpuAction_next s
  cases hu.symm.trans h
  exact hacc.sameRom

theorem machineReset_cart (s : State) : (machineReset s).cart = s.cart := by
  rw [machineReset, cpuReset_eq]

/-- Each of the four ways a step ends keeps the ROM: only its CPU action reaches the cartridge. -/
theorem step_sameRom {s t : State} (h : step s = .next t) : s.cart.SameRom t.cart := by
  have howed {u : State} (hu : cpuAction (drain s).1 = .next u) :
      s.cart.SameRom (drain (owe (drain s).1 u)).1.cart := by
    have hrom := cpuAction_sameRom hu
    rw [drain_cart] at hrom
    rw [drain_cart]
    exact hrom
  obtain ⟨-, rfl⟩ | ⟨-, -, rfl⟩ | ⟨-, -, u, hu, -, rfl⟩ | ⟨-, -, u, hu, -, rfl⟩ := step_cases h
  · rw [machineReset_cart]
    exact .refl s.cart
  · change s.cart.SameRom (drain s).1.cart
    rw [drain_cart]
    exact .refl s.cart
  · exact howed hu
  · exact howed hu

/-- Settles O58: `step_sameRom`, field by field. -/
theorem stepKeepsRom : Obligations.StepKeepsRom := by
  refine ⟨fun s t h => ?_, machineReset_cart⟩
  have hs := step_sameRom h
  exact ⟨hs.prgRom, hs.prgBanks, hs.mapper, hs.mirroring, hs.chrIsRam, hs.chrBanks, hs.chr, hs.prgBank, hs.chrBank⟩

/-! The CPU window (R565 to R571). -/

theorem peek_cart {a : Word} (h : 0x4020 ≤ a) (s : State) : peek s a = s.cart.cpuRead a := by
  rw [peek, cpuRead_cart h]

theorem Cart.cpuRead_prgRam {a : Word} (h6 : 0x6000 ≤ a.toNat) (h8 : a.toNat < 0x8000) (c : Cart) :
    c.cpuRead a = c.prgRam.read (a.toNat - 0x6000) := by
  have h6' : ¬a < 0x6000 := Nat.not_lt.mpr h6
  have h8' : a < 0x8000 := h8
  rw [Cart.cpuRead, if_neg h6', if_pos h8']

theorem Cart.cpuRead_prgRom {a : Word} (h8 : 0x8000 ≤ a.toNat) (c : Cart) :
    c.cpuRead a = c.prgRom.read (c.prgIndex a) := by
  have h6' : ¬a < 0x6000 := by bv_omega
  have h8' : ¬a < 0x8000 := Nat.not_lt.mpr h8
  rw [Cart.cpuRead, if_neg h6', if_neg h8']

/-- Without a PRG bank register the banks lie one after the other and repeat (R567). -/
theorem Cart.prgIndex_fixed {c : Cart} (h : c.mapper ≠ .uxrom) (a : Word) :
    c.prgIndex a = (a.toNat - 0x8000) % (16384 * c.prgBanks) := by
  unfold Cart.prgIndex
  cases hm : c.mapper with
  | uxrom => exact absurd hm h
  | _ => rfl

/-- Mapper 2: the selected bank below 0xC000, the last from there on (R567). -/
theorem Cart.prgIndex_uxrom {c : Cart} (h : c.mapper = .uxrom) (a : Word) :
    c.prgIndex a =
      if a.toNat < 0xC000 then 16384 * (c.prgBank.toNat % c.prgBanks) + a.toNat % 16384
      else 16384 * (c.prgBanks - 1) + a.toNat % 16384 := by
  unfold Cart.prgIndex
  rw [h]
  rfl

theorem Cart.cpuWrite_prgRam {a : Word} (h6 : 0x6000 ≤ a.toNat) (h8 : a.toNat < 0x8000) (c : Cart) (v : Byte) :
    c.cpuWrite a v = { c with prgRam := c.prgRam.write (a.toNat - 0x6000) v } := by
  have h6' : ¬a < 0x6000 := Nat.not_lt.mpr h6
  have h8' : a < 0x8000 := h8
  rw [Cart.cpuWrite, if_neg h6', if_pos h8']

/-- At 0x8000 and above a write sets the bank register of the mapper (R569 to R571). -/
theorem Cart.cpuWrite_register {a : Word} (h8 : 0x8000 ≤ a.toNat) (c : Cart) (v : Byte) :
    (c.mapper = .nrom → c.cpuWrite a v = c) ∧ (c.mapper = .uxrom → c.cpuWrite a v = { c with prgBank := v }) ∧
      (c.mapper = .cnrom → c.cpuWrite a v = { c with chrBank := v }) := by
  have h6' : ¬a < 0x6000 := by bv_omega
  have h8' : ¬a < 0x8000 := Nat.not_lt.mpr h8
  rw [Cart.cpuWrite, if_neg h6', if_neg h8']
  refine ⟨fun hm => ?_, fun hm => ?_, fun hm => ?_⟩ <;> rw [hm]

/-- Settles O34: each region of the window by its rule, and PRG ROM by `cpuWrite_sameRom`. -/
theorem cartridgeCpuWindow : Obligations.CartridgeCpuWindow := by
  refine ⟨fun a s ha => ?reads, fun a v s ha h6 => ?openBus, fun a v s h6 h8 => ?prgRam, fun a v s h8 => ?register,
    fun a v s => (cpuWrite_sameRom a v s).prgRom⟩
  case reads =>
    rw [cpuRead_cart ha, peek_cart ha]
    refine ⟨rfl, fun h6 => Cart.cpuRead_open h6 _, fun h6 h8 => Cart.cpuRead_prgRam h6 h8 _, fun h8 hm => ?fixed,
      fun h8 hC hm => ?selected, fun hC hm => ?last⟩
    case fixed => rw [Cart.cpuRead_prgRom h8, Cart.prgIndex_fixed hm]
    case selected => rw [Cart.cpuRead_prgRom h8, Cart.prgIndex_uxrom hm, if_pos hC]
    case last => rw [Cart.cpuRead_prgRom (by omega), Cart.prgIndex_uxrom hm, if_neg (by omega)]
  case openBus => rw [cpuWrite_cart ha, Cart.cpuWrite_open h6]
  case prgRam =>
    have ha : 0x4020 ≤ a := by bv_omega
    rw [cpuWrite_cart ha, Cart.cpuWrite_prgRam h6 h8]
  case register =>
    have ha : 0x4020 ≤ a := by bv_omega
    obtain ⟨hnrom, huxrom, hcnrom⟩ := s.cart.cpuWrite_register h8 v
    rw [cpuWrite_cart ha]
    exact ⟨fun hm => by rw [hnrom hm], fun hm => by rw [huxrom hm], fun hm => by rw [hcnrom hm]⟩

end Sys2Proof.Machine
end

section
/-! The clock of the Synchronizer (53_synchronizer.md R632 to R635, R638): the debt and the two counters through a
drain, a CPU action and the dots it owes, then through the four ways a step ends. -/

namespace Sys2Proof.Machine

/-! The clock relation. -/

/-- A drain turns owed dots into stepped dots, one for one. -/
theorem drain_clockExact {s : State} (h : s.clockExact) : (drain s).1.clockExact := by
  obtain ⟨hpaid, -, -, hrep, -⟩ := drain_pays s
  unfold State.clockExact at h ⊢
  rw [hpaid, hrep]
  exact h

/-- Each cycle reported owes three dots (R634). -/
theorem owe_clockExact (before : State) {after : State} (h : after.clockExact) : (owe before after).clockExact := by
  unfold State.clockExact at h ⊢
  simp only [owe]
  omega

/-- Of the Synchronizer a CPU action consumes the pending NMI only. -/
theorem cpuAction_sync {s t : State} (h : cpuAction s = .next t) :
    t.sync.debt = s.sync.debt ∧ t.sync.dots = s.sync.dots ∧ t.sync.reported = s.sync.reported := by
  obtain ⟨u, y, hu, hacc, hdebt, hdots, hrep, -⟩ := cpuAction_next s
  cases hu.symm.trans h
  rw [hacc.sync]
  exact ⟨hdebt, hdots, hrep⟩

theorem cpuAction_clockExact {s t : State} (hs : s.clockExact) (h : cpuAction s = .next t) : t.clockExact := by
  obtain ⟨hdebt, hdots, hrep⟩ := cpuAction_sync h
  unfold State.clockExact at hs ⊢
  rw [hdebt, hdots, hrep]
  exact hs

theorem present_clockExact {s : State} (h : s.clockExact) : (present s).clockExact := h

/-- A machine reset discards the debt and starts both counters again (R638 (d)). -/
theorem machineReset_sync (s : State) :
    (machineReset s).sync = { s.sync with debt := 0, nmiPending := false, reported := 0, dots := 0 } := by
  rw [machineReset, cpuReset_eq]

theorem machineReset_clockExact (s : State) : (machineReset s).clockExact := by
  rw [State.clockExact, machineReset_sync]
  rfl

/-- Settles O54: each of the four ways a step ends keeps the relation. -/
theorem stepKeepsClockExact : Obligations.StepKeepsClockExact := by
  intro s t hs hstep
  have howed {u : State} (hu : cpuAction (drain s).1 = .next u) : (drain (owe (drain s).1 u)).1.clockExact :=
    drain_clockExact (owe_clockExact _ (cpuAction_clockExact (drain_clockExact hs) hu))
  obtain ⟨-, rfl⟩ | ⟨-, -, rfl⟩ | ⟨-, -, u, hu, -, rfl⟩ | ⟨-, -, u, hu, -, rfl⟩ := step_cases hstep
  · exact machineReset_clockExact s
  · exact present_clockExact (drain_clockExact hs)
  · exact howed hu
  · exact present_clockExact (howed hu)

/-! The debt bound: what one CPU action can report (R635, log entry 18). -/

@[simp] theorem fetchByte_cycles (s : State) : (fetchByte s).2.cpu.cycles = s.cpu.cycles := by
  simp [fetchByte]

@[simp] theorem fetchInstr_cycles (s : State) : (fetchInstr s).2.cpu.cycles = s.cpu.cycles := by
  unfold fetchInstr
  dsimp only
  split <;> simp

/-- An interrupt entry counts 7 cycles, or none while halted (60_exceptions.md R663, R665). -/
theorem nmi_cycles_le (s : State) : (nmi s).cpu.cycles ≤ s.cpu.cycles + 7 := by
  unfold nmi
  split
  · exact Nat.le_add_right _ _
  · rw [takeInterrupt_eq _ _ _ (by decide) (by decide)]
    exact le_refl _

@[inherit_doc nmi_cycles_le]
theorem irq_cycles_le (s : State) : (irq s).cpu.cycles ≤ s.cpu.cycles + 7 := by
  unfold irq
  split
  · exact Nat.le_add_right _ _
  · rw [takeInterrupt_eq _ _ _ (by decide) (by decide)]
    exact le_refl _

theorem cpuStep_cycles_le {s t : State} (h : cpuStep s = .next t) : t.cpu.cycles ≤ s.cpu.cycles + maxActionCycles := by
  unfold cpuStep at h
  split at h
  · cases h
    exact Nat.add_le_add_left (by decide) _
  · obtain ⟨u, hu, -, hle, -⟩ := everyInstructionCompletes (fetchInstr s).1 (fetchInstr s).2
    cases hu.symm.trans h
    rwa [fetchInstr_cycles] at hle

theorem cpuAction_cycles_le {s t : State} (h : cpuAction s = .next t) :
    t.cpu.cycles ≤ s.cpu.cycles + maxActionCycles := by
  have h7 : 7 ≤ maxActionCycles := by decide
  unfold cpuAction at h
  split at h
  · cases h
    exact (nmi_cycles_le (clearNmi s)).trans (Nat.add_le_add_left h7 _)
  · split at h
    · cases h
      exact (irq_cycles_le s).trans (Nat.add_le_add_left h7 _)
    · exact cpuStep_cycles_le h

/-- After a CPU action without earlier debt, at most the dots of the largest action are owed. -/
theorem owe_debt_le {s u : State} (hs : s.sync.debt = 0) (h : cpuAction s = .next u) :
    (owe s u).sync.debt ≤ 3 * maxActionCycles := by
  obtain ⟨hdebt, -, -⟩ := cpuAction_sync h
  have hle := cpuAction_cycles_le h
  change u.sync.debt + 3 * (u.cpu.cycles - s.cpu.cycles) ≤ _
  omega

/-- Settles O55: a step leaves no debt, or ends a frame with at least one dot of the debt paid. -/
theorem stepKeepsDebtBounded : Obligations.StepKeepsDebtBounded := by
  rintro s t ⟨hs, -⟩ hstep
  obtain ⟨-, rfl⟩ | ⟨-, hready, rfl⟩ | ⟨-, -, u, -, hready, rfl⟩ | ⟨-, hopened, u, hu, hready, rfl⟩ :=
    step_cases hstep
  · rw [State.debtBounded, machineReset_sync]
    exact ⟨Nat.zero_le _, fun _ => rfl⟩
  · obtain ⟨-, -, hpaid, -⟩ := drain_pays s
    have hlt := hpaid hready
    refine ⟨?_, fun hin => nomatch hin⟩
    change (drain s).1.sync.debt ≤ _
    omega
  · obtain ⟨-, hall, -⟩ := drain_pays (owe (drain s).1 u)
    have hzero := hall hready
    exact ⟨hzero ▸ Nat.zero_le _, fun _ => hzero⟩
  · obtain ⟨-, hall, -⟩ := drain_pays s
    obtain ⟨-, -, hpaid, -⟩ := drain_pays (owe (drain s).1 u)
    have hlt := hpaid hready
    have hle := owe_debt_le (hall hopened) hu
    refine ⟨?_, fun hin => nomatch hin⟩
    change (drain (owe (drain s).1 u)).1.sync.debt ≤ _
    omega

end Sys2Proof.Machine
end

section
/-! One step (53_synchronizer.md R632, R633, R636, 60_exceptions.md R668, R670): which action it takes, and that it
always answers. -/

namespace Sys2Proof.Machine

/-! The branches of a step. -/

theorem takesReset_eq_false_iff (s : State) :
    takesReset s = false ↔ s.host.resetRequested = false ∨ s.sync.inFrame = true := by
  rw [takesReset, Bool.and_eq_false_iff, Bool.not_eq_false']

theorem step_reset {s : State} (h : takesReset s = true) : step s = .next (machineReset s) := if_pos h

/-- The owed dots complete a frame before the CPU acts. -/
theorem step_handsOver {s : State} (hr : takesReset s = false) (hd : (drain s).2 = true) :
    step s = .next (present (drain s).1) := by
  simp [step, hr, hd]

theorem step_acts {s t : State} (hr : takesReset s = false) (hd : (drain s).2 = false)
    (ht : cpuAction (drain s).1 = .next t) : step s = .next (afterAction (drain s).1 t) := by
  simp [step, hr, hd, ht]

/-! The CPU action by priority. -/

theorem cpuAction_nmi {s : State} (h : s.sync.nmiPending = true) : cpuAction s = .next (nmi (clearNmi s)) := if_pos h

theorem cpuAction_irq {s : State} (hn : s.sync.nmiPending = false) (hl : s.cpu.irqLine = true)
    (hi : s.cpu.p.i = false) : cpuAction s = .next (irq s) := by
  simp [cpuAction, hn, hl, hi]

theorem cpuAction_cpuStep {s : State} (hn : s.sync.nmiPending = false)
    (h : s.cpu.irqLine = false ∨ s.cpu.p.i = true) : cpuAction s = cpuStep s := by
  have hirq : (s.cpu.irqLine && !s.cpu.p.i) = false := by rwa [Bool.and_eq_false_iff, Bool.not_eq_false']
  simp [cpuAction, hn, hirq]

theorem machineReset_host (s : State) : (machineReset s).host = { s.host with resetRequested := false } := by
  rw [machineReset, cpuReset_eq]

/-- Settles O53: the branches of `step` and of its CPU action, then the two equations of `drain`. -/
theorem interruptPriority : Obligations.InterruptPriority := by
  refine ⟨fun s hreq hout => ⟨step_reset ?reset, machineReset_host s⟩, fun s hno => ?act, fun s => drain_nothing,
    fun s => drain_owed, fun before after => rfl⟩
  case reset => simp [takesReset, hreq, hout]
  case act =>
    have hr := (takesReset_eq_false_iff s).mpr hno
    refine ⟨step_handsOver hr, fun hd hn => step_acts hr hd (cpuAction_nmi hn),
      fun hd hn hl hi => step_acts hr hd (cpuAction_irq hn hl hi), fun hd hn h => ?_⟩
    obtain ⟨t, -, ht, -⟩ := cpuAction_next (drain s).1
    exact ⟨t, (cpuAction_cpuStep hn h).symm.trans ht, step_acts hr hd ht⟩

/-! Every step answers. -/

theorem step_next (s : State) : ∃ t : State, step s = .next t := by
  cases hr : takesReset s with
  | true => exact ⟨_, step_reset hr⟩
  | false =>
    cases hd : (drain s).2 with
    | true => exact ⟨_, step_handsOver hr hd⟩
    | false =>
      obtain ⟨t, -, ht, -⟩ := cpuAction_next (drain s).1
      exact ⟨_, step_acts hr hd ht⟩

/-- A run whose first step answers goes on from there. -/
theorem run_succ_of_next {M : Host.Core} {s t : M.State} (h : M.step s = .next t) (n : Nat) :
    M.run (n + 1) s = M.run n t := by
  rw [Host.Core.run, h]

/-- Settles O60: one step by `step_next`, a run by induction on its length. -/
theorem everyRunIsSafe : Obligations.EveryRunIsSafe := by
  refine ⟨step_next, fun s n => ?_⟩
  induction n generalizing s with
  | zero => exact ⟨s, rfl⟩
  | succ n ih =>
    obtain ⟨t, ht⟩ := step_next s
    obtain ⟨u, hu⟩ := ih t
    exact ⟨u, (run_succ_of_next (M := core) ht n).trans hu⟩

end Sys2Proof.Machine
end

section
/-! The CPU and the PPU apart (60_exceptions.md R677, 20_memory.md R131): what no bus access and no register change of
an instruction touches, and so where a frame handed over comes from (53_synchronizer.md R636). -/

namespace Sys2Proof.Machine

/-! The PPU behind its registers. -/

/-- `q` is `p` but for what the register window reaches: same position, pipelines, frame buffer and sprite flags. -/
structure Ppu.SameBehind (p q : Ppu) : Prop where
  scanline : q.scanline = p.scanline
  dot : q.dot = p.dot
  frame : q.frame = p.frame
  bg : q.bg = p.bg
  spr : q.spr = p.spr
  frameBuffer : q.frameBuffer = p.frameBuffer
  sprite0Hit : q.sprite0Hit = p.sprite0Hit
  spriteOverflow : q.spriteOverflow = p.spriteOverflow

theorem Ppu.SameBehind.refl (p : Ppu) : p.SameBehind p := by constructor <;> rfl

theorem Ppu.SameBehind.trans {p q r : Ppu} (h : p.SameBehind q) (h' : q.SameBehind r) : p.SameBehind r where
  scanline := h'.scanline.trans h.scanline
  dot := h'.dot.trans h.dot
  frame := h'.frame.trans h.frame
  bg := h'.bg.trans h.bg
  spr := h'.spr.trans h.spr
  frameBuffer := h'.frameBuffer.trans h.frameBuffer
  sprite0Hit := h'.sprite0Hit.trans h.sprite0Hit
  spriteOverflow := h'.spriteOverflow.trans h.spriteOverflow

theorem Ppu.oamStore_sameBehind (p : Ppu) (i b : Byte) : p.SameBehind (p.oamStore i b) := { Ppu.SameBehind.refl p with }

theorem Ppu.writeScroll_sameBehind (p : Ppu) (v : Byte) : p.SameBehind (p.writeScroll v) := by
  unfold Ppu.writeScroll
  split <;> exact { Ppu.SameBehind.refl p with }

theorem Ppu.writeAddr_sameBehind (p : Ppu) (v : Byte) : p.SameBehind (p.writeAddr v) := by
  unfold Ppu.writeAddr
  split <;> exact { Ppu.SameBehind.refl p with }

theorem Ppu.writeData_sameBehind (p : Ppu) (c : Cart) (v : Byte) : p.SameBehind (p.writeData c v).1 := by
  obtain ⟨ciram, pal, h⟩ := p.busWrite_kept c (p.v.setWidth 14) v
  rw [Ppu.writeData, h]
  exact { Ppu.SameBehind.refl p with }

/-- Register by register (50_ppu.md R460 to R474). -/
theorem Ppu.regWrite_sameBehind (p : Ppu) (c : Cart) (r : BitVec 3) (v : Byte) :
    p.SameBehind (p.regWrite c r v).1 := by
  unfold Ppu.regWrite
  split_ifs
  iterate 5 exact { Ppu.SameBehind.refl p with }
  · exact { p.writeScroll_sameBehind v with }
  · exact { p.writeAddr_sameBehind v with }
  · exact { p.writeData_sameBehind c v with }

/-! The machine behind the bus. -/

/-- What no access and no register change touches, from `s` to `t`: of the host's side the draws may differ. -/
structure State.SameBehind (s t : State) : Prop where
  sync : t.sync = s.sync
  irqLine : t.cpu.irqLine = s.cpu.irqLine
  ppu : s.ppu.SameBehind t.ppu
  presented : t.host.presented = s.host.presented
  lastFrame : t.host.lastFrame = s.host.lastFrame
  resetRequested : t.host.resetRequested = s.host.resetRequested

theorem State.SameBehind.refl (s : State) : s.SameBehind s := ⟨rfl, rfl, .refl s.ppu, rfl, rfl, rfl⟩

theorem State.SameBehind.trans {s t u : State} (h : s.SameBehind t) (h' : t.SameBehind u) : s.SameBehind u where
  sync := h'.sync.trans h.sync
  irqLine := h'.irqLine.trans h.irqLine
  ppu := h.ppu.trans h'.ppu
  presented := h'.presented.trans h.presented
  lastFrame := h'.lastFrame.trans h.lastFrame
  resetRequested := h'.resetRequested.trans h.resetRequested

theorem State.SameBehind.setPpu {s t : State} {p : Ppu} (h : s.SameBehind t) (hp : t.ppu.SameBehind p) :
    s.SameBehind (t.setPpu p) :=
  { h with ppu := h.ppu.trans hp }

/-- Of the host's side a bus read counts a draw at most. -/
theorem cpuRead_host_kept (a : Word) (s : State) : ∃ d, (cpuRead a s).2.host = { s.host with draws := d } := by
  unfold cpuRead
  cases region a with
  | pad1 | pad2 => exact ⟨_, rfl⟩
  | _ => exact ⟨s.host.draws, rfl⟩

/-- A bus read changes PPU registers, a port's cursor and the draws at most. -/
theorem cpuRead_sameBehind (a : Word) (s : State) : s.SameBehind (cpuRead a s).2 := by
  obtain ⟨vb, w, v, buf, hppu⟩ := cpuRead_ppu_kept a s
  have hbehind : s.ppu.SameBehind (cpuRead a s).2.ppu := by
    rw [hppu]
    exact { Ppu.SameBehind.refl s.ppu with }
  obtain ⟨d, hhost⟩ := cpuRead_host_kept a s
  refine ⟨cpuRead_sync a s, congrArg Cpu.irqLine (cpuRead_cpu a s), hbehind, ?_, ?_, ?_⟩
  all_goals rw [hhost]

theorem dmaCopy_sameBehind (page : Byte) (n : Nat) (s : State) : s.SameBehind (dmaCopy page n s) := by
  induction n generalizing s with
  | zero => exact .refl s
  | succ n ih =>
    exact ((cpuRead_sameBehind (word page (BitVec.ofNat 8 (255 - n))) s).setPpu (Ppu.oamStore_sameBehind _ _ _)).trans
      (ih _)

theorem cpuWrite_sameBehind (a : Word) (v : Byte) (s : State) : s.SameBehind (cpuWrite a v s) := by
  unfold cpuWrite
  cases region a with
  | ppuReg r => exact { State.SameBehind.refl s with ppu := s.ppu.regWrite_sameBehind s.cart r v }
  | oamDma => exact dmaCopy_sameBehind v 256 s
  | _ => exact { State.SameBehind.refl s with }

theorem Accesses.sameBehind {s t : State} (h : Accesses s t) : s.SameBehind t := by
  refine h.keeps (P := s.SameBehind) (.refl s) ?read ?write ?regs
  case read => exact fun u a hu => hu.trans (cpuRead_sameBehind a u)
  case write => exact fun u a v hu => hu.trans (cpuWrite_sameBehind a v u)
  case regs => exact fun _ _ ⟨hirq, _⟩ hu => { hu with irqLine := hirq.trans hu.irqLine }

/-- Settles O29: an instruction is a sequence of accesses, and a drain touches the PPU and the Synchronizer only. -/
theorem cpuAndPpuAreApart : Obligations.CpuAndPpuAreApart := by
  refine ⟨fun i s t h => ?instruction, fun s => ?drain⟩
  case instruction =>
    have hs := (exec_accesses h).sameBehind
    exact ⟨hs.sync, hs.irqLine, hs.ppu.scanline, hs.ppu.dot, hs.ppu.frame, hs.ppu.bg, hs.ppu.spr, hs.ppu.frameBuffer,
      hs.ppu.sprite0Hit, hs.ppu.spriteOverflow, hs.presented, hs.lastFrame, hs.resetRequested⟩
  case drain =>
    obtain ⟨p, y, h⟩ := drain_kept s
    rw [h]
    exact ⟨rfl, rfl, rfl, rfl, rfl, rfl⟩

/-! The frames handed over (R636). -/

/-- A dot that raises frame-ready ends the frame (50_ppu.md R503). -/
theorem Ppu.position_of_frameReady {p : Ppu} {c : Cart} (h : (p.step c).2.frameReady = true) :
    (p.step c).1.scanline = 0 ∧ (p.step c).1.dot = 0 := by
  by_cases hend : p.skipsDot = true ∨ p.dot = 340 ∧ p.scanline = 261
  · obtain ⟨hdot, hline, -, -⟩ := p.step_endsFrame hend c
    exact ⟨hline, hdot⟩
  · obtain ⟨hskip, hlast⟩ := not_or.mp hend
    obtain ⟨-, -, -, hready⟩ := p.step_moves hskip hlast c
    exact absurd (hready.symm.trans h) Bool.false_ne_true

theorem drainLoop_position {n : Nat} {s : State} (h : (drainLoop n s).2 = true) :
    (drainLoop n s).1.ppu.scanline = 0 ∧ (drainLoop n s).1.ppu.dot = 0 := by
  induction n generalizing s with
  | zero => exact absurd h Bool.false_ne_true
  | succ n ih =>
    unfold drainLoop at h ⊢
    dsimp only at h ⊢
    split at h
    · next hready =>
      rw [if_pos hready]
      exact Ppu.position_of_frameReady hready
    · next hready =>
      rw [if_neg hready]
      exact ih h

/-- A drain that raised frame-ready stopped at the start of the next frame. -/
theorem drain_position {s : State} (h : (drain s).2 = true) :
    (drain s).1.ppu.scanline = 0 ∧ (drain s).1.ppu.dot = 0 := drainLoop_position h

theorem drain_host (s : State) : (drain s).1.host = s.host := by
  obtain ⟨p, y, h⟩ := drain_kept s
  rw [h]

theorem cpuAction_host {s t : State} (h : cpuAction s = .next t) :
    t.host.presented = s.host.presented ∧ t.host.lastFrame = s.host.lastFrame := by
  obtain ⟨u, y, hu, hacc, -⟩ := cpuAction_next s
  cases hu.symm.trans h
  exact ⟨hacc.sameBehind.presented, hacc.sameBehind.lastFrame⟩

/-- Settles O59: only `present` hands over a frame, and it follows a drain that raised frame-ready. -/
theorem framesArePresentedWhole : Obligations.FramesArePresentedWhole := by
  intro s t hstep
  have howed {u : State} (hu : cpuAction (drain s).1 = .next u) :
      (drain (owe (drain s).1 u)).1.host.presented = s.host.presented ∧
        (drain (owe (drain s).1 u)).1.host.lastFrame = s.host.lastFrame := by
    have hact := cpuAction_host hu
    rw [drain_host s] at hact
    rw [drain_host]
    exact hact
  obtain ⟨-, rfl⟩ | ⟨-, hready, rfl⟩ | ⟨-, -, u, hu, -, rfl⟩ | ⟨-, -, u, hu, hready, rfl⟩ := step_cases hstep
  · rw [machineReset_host]
    exact .inl ⟨rfl, rfl⟩
  · obtain ⟨hline, hdot⟩ := drain_position hready
    have hcount : (drain s).1.host.presented = s.host.presented := by rw [drain_host]
    exact .inr ⟨congrArg (· + 1) hcount, rfl, rfl, hline, hdot⟩
  · exact .inl (howed hu)
  · obtain ⟨hline, hdot⟩ := drain_position hready
    obtain ⟨hcount, -⟩ := howed hu
    exact .inr ⟨congrArg (· + 1) hcount, rfl, rfl, hline, hdot⟩

end Sys2Proof.Machine
end

section
/-! Interrupt entry and return (60_exceptions.md R663, R665, R671, R672): the three bytes entry pushes are the three RTI
pulls. -/

namespace Sys2Proof.Machine

/-! Entry. -/

theorem nmi_running {s : State} (h : s.cpu.halted = false) :
    nmi s = (takeInterrupt false s.cpu.pc nmiVector s).charge 7 := by
  rw [nmi, h, if_neg Bool.false_ne_true]

theorem irq_running {s : State} (h : s.cpu.halted = false) :
    irq s = (takeInterrupt false s.cpu.pc irqVector s).charge 7 := by
  rw [irq, h, if_neg Bool.false_ne_true]

/-- Settles O51: the frame of `takeInterrupt_eq_ofNat`, and the status byte as a number. -/
theorem interruptEntry : Obligations.InterruptEntry := by
  refine ⟨fun s h => ⟨nmi_halted h, irq_halted h⟩, fun s h => ?_, Status.toByte_toNat⟩
  rw [nmi_running h, irq_running h, takeInterrupt_eq_ofNat _ _ _ (by decide) (by decide),
    takeInterrupt_eq_ofNat _ _ _ (by decide) (by decide)]
  exact ⟨rfl, rfl⟩

/-! Return. -/

/-- The three stack slots of an entry are three cells, page 1 wrapping. -/
theorem stackSlots_ne (sp : Byte) :
    256 + sp.toNat ≠ 256 + (sp - 1).toNat ∧ 256 + sp.toNat ≠ 256 + (sp - 1 - 1).toNat ∧
      256 + (sp - 1).toNat ≠ 256 + (sp - 1 - 1).toNat := by
  refine ⟨?_, ?_, ?_⟩ <;> bv_omega

/-- A memory after three writes to three cells reads back the three values. -/
theorem Memory.read_three {m : Memory 8} (h : m.wf = true) {i j k : Nat} (hij : i ≠ j) (hik : i ≠ k) (hjk : j ≠ k)
    (u v w : Byte) :
    (((m.write i u).write j v).write k w).read i = u ∧ (((m.write i u).write j v).write k w).read j = v ∧
      (((m.write i u).write j v).write k w).read k = w := by
  have h1 := Memory.wf_write h i u
  have h2 := Memory.wf_write h1 j v
  refine ⟨?_, ?_, Memory.read_write_same h2 k w⟩
  · rw [Memory.read_write_other h2 hik.symm, Memory.read_write_other h1 hij.symm, Memory.read_write_same h]
  · rw [Memory.read_write_other h2 hjk.symm, Memory.read_write_same h1]

/-- RETURN UNDOES ENTRY (R672): PC is the address pushed, the other registers are those before, and of the entry its
stack bytes and its cycles remain. -/
theorem returnFromInterrupt_takeInterrupt {s : State} (hs : s.ram.wf = true) (b : Bool) {ret vector : Word}
    (h : 0x4020 ≤ vector) (h1 : 0x4020 ≤ vector + 1) (n : Nat) :
    returnFromInterrupt ((takeInterrupt b ret vector s).charge n) =
      { takeInterrupt b ret vector s with cpu := { s.cpu with pc := ret, cycles := s.cpu.cycles + n } } := by
  obtain ⟨h01, h02, h12⟩ := stackSlots_ne s.cpu.sp
  obtain ⟨hhi, hlo, hp⟩ :=
    Memory.read_three hs h01 h02 h12 (hiByte ret) (loByte ret) (s.cpu.p.toByte b)
  rw [takeInterrupt_eq b ret vector h h1, returnFromInterrupt_eq]
  simp only [State.charge, BitVec.sub_add_cancel, hhi, hlo, hp, word_hiByte_loByte, Status.ofByte_toByte]

/-- Settles O52: each of the three entries is a `takeInterrupt`, and RTI a charged return. -/
theorem rtiUndoesEntry : Obligations.RtiUndoesEntry := by
  refine ⟨fun s hs hrun => ⟨?nmi, ?irq⟩, fun s t hs ht => ?brk⟩
  case nmi =>
    rw [exec_rti, nmi_running hrun, returnFromInterrupt_takeInterrupt hs _ (by decide) (by decide)]
    rfl
  case irq =>
    rw [exec_rti, irq_running hrun, returnFromInterrupt_takeInterrupt hs _ (by decide) (by decide)]
    rfl
  case brk =>
    rw [exec_brk] at ht
    cases ht
    rw [exec_rti, returnFromInterrupt_takeInterrupt hs _ (by decide) (by decide)]
    rfl

end Sys2Proof.Machine
end

section
/-! The reset sequences (60_exceptions.md R661, 70_reset_and_hazards.md R700 to R702) and what holds after them. -/

namespace Sys2Proof.Machine

/-! The registers after a reset. -/

/-- `cpu.reset()` with PC as the number two bus reads of the vector make. -/
theorem cpuReset_eq_ofNat (s : State) :
    cpuReset s =
      { s with
        cpu :=
          { s.cpu.resetRegisters with
            pc := BitVec.ofNat 16 (256 * (peek s 0xFFFD).toNat + (peek s 0xFFFC).toNat)
            cycles := s.cpu.cycles + 7 } } := by
  rw [cpuReset_eq, word_eq_ofNat, peek_cart (by decide), peek_cart (by decide)]

theorem powerOnImage_ok {init : PowerOnContents} {img : List Byte} {cart : Cart} (h : load init img = .ok cart) :
    powerOnImage init img = .ok (State.powerOn init cart) := by
  rw [powerOnImage, h]

theorem powerOnImage_error {init : PowerOnContents} {img : List Byte} {e : LoadError}
    (h : load init img = .error e) : powerOnImage init img = .error e := by
  rw [powerOnImage, h]

/-- Power-on is the machine before its reset with the registers `cpu.reset()` gives (R700). -/
theorem powerOn_eq (init : PowerOnContents) (cart : Cart) :
    State.powerOn init cart =
      { State.unreset init cart with
        cpu :=
          { Cpu.powerOn with
            pc :=
              BitVec.ofNat 16
                (256 * (peek (State.powerOn init cart) 0xFFFD).toNat + (peek (State.powerOn init cart) 0xFFFC).toNat)
            cycles := 7 } } := by
  have hpeek {a : Word} (ha : 0x4020 ≤ a) : peek (State.unreset init cart) a = peek (State.powerOn init cart) a := by
    rw [State.powerOn, cpuReset_eq, peek_cart ha, peek_cart ha]
  rw [← hpeek (by decide), ← hpeek (by decide), State.powerOn, cpuReset_eq_ofNat]
  rfl

/-- Settles O50: the registers of `cpuReset_eq_ofNat`, over the power-on machine and over the cleared PPU. -/
theorem resetSequences : Obligations.ResetSequences := by
  refine ⟨cpuReset_eq_ofNat, fun init img => ⟨fun e => powerOnImage_error, fun cart => powerOnImage_ok⟩,
    fun init cart => ?powerOn, fun s => ?machineReset⟩
  case powerOn =>
    have h := powerOn_eq init cart
    intro s
    exact ⟨congrArg State.cpu h, congrArg State.ram h, congrArg State.ppu h, fun k => rfl, rfl, rfl, rfl, rfl, rfl⟩
  case machineReset =>
    rw [machineReset_sync, machineReset_host]
    rfl

/-! After a reset. -/

/-- The power-on contents, memory by memory. -/
theorem PowerOnContents.wf_iff {init : PowerOnContents} : init.wf = true ↔
    Memory.ok init.ram 2048 = true ∧ Memory.ok init.vram 2048 = true ∧ Memory.ok init.fsVram 2048 = true ∧
      Memory.ok init.palette 32 = true ∧ Memory.ok init.oam 256 = true ∧ Memory.ok init.prgRam 8192 = true ∧
      Memory.ok init.chrRam 8192 = true := by
  simp [PowerOnContents.wf, Memory.ok, and_assoc]

theorem unreset_inv {init : PowerOnContents} {cart : Cart} (hinit : init.wf = true) (hcart : cart.inv = true) :
    (State.unreset init cart).inv = true := by
  obtain ⟨hram, hvram, -, hpalette, hoam, -, -⟩ := PowerOnContents.wf_iff.mp hinit
  have hppu : (Ppu.powerOn init.oam init.palette init.vram).inv = true :=
    Ppu.inv_iff.mpr ⟨hoam, hpalette, hvram, rfl, Nat.zero_le _, Nat.zero_le _, Nat.zero_le _, rfl⟩
  exact State.inv_iff.mpr ⟨hram, hppu, hcart, Nat.zero_le _, Nat.zero_le _⟩

/-- A Synchronizer that has counted nothing meets the clock relation and the debt bound. -/
theorem clock_of_zero {s : State} (hdebt : s.sync.debt = 0) (hdots : s.sync.dots = 0) (hrep : s.sync.reported = 0) :
    s.clockExact ∧ s.debtBounded := by
  rw [State.clockExact, State.debtBounded, hdebt, hdots, hrep]
  exact ⟨rfl, Nat.zero_le _, fun _ => rfl⟩

/-- Settles O57: `State.reset` has its memories empty, and power-on is a reset of `State.unreset`. -/
theorem invariantsHoldAtReset : Obligations.InvariantsHoldAtReset := by
  obtain ⟨hclock, hdebt⟩ := clock_of_zero (s := State.reset) rfl rfl rfl
  exact ⟨by decide, hclock, hdebt, fun init cart hinit hcart =>
    ⟨cpuReset_inv (unreset_inv hinit hcart), clock_of_zero rfl rfl rfl⟩⟩

end Sys2Proof.Machine
end

section
/-! The controllers (52_controller.md R600 to R609). A port is read the same way whichever it is, so one data read and a
series of them are described once for both. -/

namespace Sys2Proof.Machine

/-! The byte of a data read (R604). -/

theorem bit_zero_padByte (b : Bool) : bit (padByte b) 0 = b := by
  cases b <;> simp [bit, padByte]

theorem padByte_openBus (b : Bool) : padByte b &&& 0xFE = Config.ctrlOpenBus &&& 0xFE := by
  have hb : (BitVec.ofBool b).setWidth 8 &&& (0xFE : Byte) = 0 := by revert b; decide
  have hmask : (0xFE : Byte) &&& 0xFE = 0xFE := by decide
  have hdistrib (x y z : Byte) : (x ||| y) &&& z = (x &&& z) ||| (y &&& z) := by
    simp only [BitVec.and_comm _ z, BitVec.and_or_distrib_left]
  rw [padByte, hdistrib, BitVec.and_assoc, hmask, hb]
  exact BitVec.or_zero

/-! The two ports (R600). -/

/-- The data address of a port (20_memory.md R105). -/
def portAddr : Port → Word
  | .one => 0x4016
  | .two => 0x4017

/-- The shift register of a port. -/
def State.pad (s : State) : Port → Controller
  | .one => s.ctl1
  | .two => s.ctl2

theorem cpuRead_pad (port : Port) (s : State) :
    let r := (s.pad port).dataRead port s.host.draws
    (cpuRead (portAddr port) s).1 = r.value ∧ (cpuRead (portAddr port) s).2.pad port = r.ctl ∧
      (cpuRead (portAddr port) s).2.host.draws = if r.drew then s.host.draws + 1 else s.host.draws := by
  cases port <;> exact ⟨rfl, rfl, rfl⟩

/-- A write to 0x4016 strobes both ports (R602). -/
theorem cpuWrite_strobe (v : Byte) (port : Port) (s : State) :
    (cpuWrite 0x4016 v s).pad port = (s.pad port).strobeWrite v ∧ (cpuWrite 0x4016 v s).host = s.host := by
  cases port <;> exact ⟨rfl, rfl⟩

/-! One data read (R603). -/

variable {port : Port} {s : State}

/-- With the strobe held: A, and the cursor stays. -/
theorem cpuRead_held (h : (s.pad port).strobe = true) :
    bit (cpuRead (portAddr port) s).1 0 = Config.isPressed s.host.draws port .a ∧
      (cpuRead (portAddr port) s).2.pad port = s.pad port ∧
      (cpuRead (portAddr port) s).2.host.draws = s.host.draws + 1 := by
  obtain ⟨hvalue, hpad, hdraws⟩ := cpuRead_pad port s
  rw [hvalue, hpad, hdraws, Controller.dataRead, if_pos h]
  exact ⟨bit_zero_padByte _, rfl, rfl⟩

/-- With the strobe released and buttons left in the register: the next button, and the cursor moves on. -/
theorem cpuRead_serial (h : (s.pad port).strobe = false) {button : Button}
    (hb : serialOrder[(s.pad port).cursor]? = some button) :
    bit (cpuRead (portAddr port) s).1 0 = Config.isPressed s.host.draws port button ∧
      (cpuRead (portAddr port) s).2.pad port = { cursor := (s.pad port).cursor + 1, strobe := false } ∧
      (cpuRead (portAddr port) s).2.host.draws = s.host.draws + 1 := by
  obtain ⟨hvalue, hpad, hdraws⟩ := cpuRead_pad port s
  have hlt : (s.pad port).cursor < 8 := (List.getElem?_eq_some_iff.mp hb).1
  have hget : serialOrder.getD (s.pad port).cursor .right = button := by rw [List.getD, hb, Option.getD_some]
  rw [hvalue, hpad, hdraws, Controller.dataRead, if_neg (by simp [h]), if_pos hlt, hget, h]
  exact ⟨bit_zero_padByte _, rfl, rfl⟩

/-- With all eight buttons shifted out: 1, without a draw. -/
theorem cpuRead_sentinel (h : (s.pad port).strobe = false) (hc : 8 ≤ (s.pad port).cursor) :
    bit (cpuRead (portAddr port) s).1 0 = true ∧ (cpuRead (portAddr port) s).2.host.draws = s.host.draws := by
  obtain ⟨hvalue, hpad, hdraws⟩ := cpuRead_pad port s
  rw [hvalue, hdraws, Controller.dataRead, if_neg (by simp [h]), if_neg (Nat.not_lt.mpr hc)]
  exact ⟨bit_zero_padByte _, rfl⟩

/-! A series of data reads. -/

theorem readMany_held (n : Nat) (h : (s.pad port).strobe = true) :
    (readMany (portAddr port) n s).1.map (fun b => bit b 0) =
        (List.range n).map (fun k => Config.isPressed (s.host.draws + k) port .a) ∧
      (readMany (portAddr port) n s).2.pad port = s.pad port := by
  induction n generalizing s with
  | zero => exact ⟨rfl, rfl⟩
  | succ n ih =>
    obtain ⟨hbit, hpad, hdraws⟩ := cpuRead_held h
    obtain ⟨hbits, hrest⟩ := ih (hpad.symm ▸ h)
    refine ⟨?_, hrest.trans hpad⟩
    have hnext (k : Nat) : s.host.draws + 1 + k = s.host.draws + (k + 1) := by omega
    simp only [readMany, List.map_cons, hbit, hbits, hdraws, hnext, List.range_succ_eq_map, List.map_map]
    rfl

/-- The buttons still in the register, one draw each, then the sentinel. -/
theorem readMany_serial {buttons : List Button} (h : (s.pad port).strobe = false)
    (hb : serialOrder.drop (s.pad port).cursor = buttons) :
    (readMany (portAddr port) (buttons.length + 1) s).1.map (fun b => bit b 0) =
        buttons.mapIdx (fun k button => Config.isPressed (s.host.draws + k) port button) ++ [true] ∧
      (readMany (portAddr port) (buttons.length + 1) s).2.host.draws = s.host.draws + buttons.length := by
  induction buttons generalizing s with
  | nil =>
    obtain ⟨hbit, hdraws⟩ := cpuRead_sentinel h (List.drop_eq_nil_iff.mp hb)
    exact ⟨congrArg (fun b => [b]) hbit, hdraws⟩
  | cons button buttons ih =>
    have hget : serialOrder[(s.pad port).cursor]? = some button := by
      rw [← List.head?_drop, hb, List.head?_cons]
    obtain ⟨hbit, hpad, hdraws⟩ := cpuRead_serial h hget
    have hrest : serialOrder.drop ((cpuRead (portAddr port) s).2.pad port).cursor = buttons := by
      rw [hpad, ← List.drop_drop, hb, List.drop_one, List.tail_cons]
    obtain ⟨hbits, hcount⟩ := ih (hpad.symm ▸ rfl) hrest
    have hnext (k : Nat) : s.host.draws + 1 + k = s.host.draws + (k + 1) := by omega
    rw [List.length_cons, readMany, List.map_cons, hbit, hbits, hcount, hdraws, List.mapIdx_cons]
    refine ⟨?_, hnext _⟩
    simp only [hnext]
    rfl

/-! The strobe (R602). -/

/-- Writing 1 holds the strobe at A. -/
theorem strobe_held (port : Port) (s : State) :
    (cpuWrite 0x4016 1 s).pad port = { cursor := 0, strobe := true } ∧ (cpuWrite 0x4016 1 s).host = s.host := by
  obtain ⟨hpad, hhost⟩ := cpuWrite_strobe 1 port s
  exact ⟨hpad.trans rfl, hhost⟩

/-- Writing 0 after it releases the strobe with all eight buttons in the register. -/
theorem strobe_released (port : Port) (s : State) :
    (cpuWrite 0x4016 0 (cpuWrite 0x4016 1 s)).pad port = { cursor := 0, strobe := false } ∧
      (cpuWrite 0x4016 0 (cpuWrite 0x4016 1 s)).host = s.host := by
  obtain ⟨hpad1, hhost1⟩ := strobe_held port s
  obtain ⟨hpad, hhost⟩ := cpuWrite_strobe 0 port (cpuWrite 0x4016 1 s)
  rw [hpad, hpad1, hhost, hhost1]
  exact ⟨rfl, rfl⟩

/-- After a strobe a port gives the answers for the eight buttons in serial order, then 1. -/
theorem readMany_strobed (port : Port) (s : State) :
    let s2 := cpuWrite 0x4016 0 (cpuWrite 0x4016 1 s)
    (readMany (portAddr port) 9 s2).1.map (fun b => bit b 0) =
        serialOrder.mapIdx (fun k button => Config.isPressed (s.host.draws + k) port button) ++ [true] ∧
      (readMany (portAddr port) 9 s2).2.host.draws = s.host.draws + 8 := by
  obtain ⟨hpad, hhost⟩ := strobe_released port s
  have h := readMany_serial (port := port) (s := cpuWrite 0x4016 0 (cpuWrite 0x4016 1 s)) (buttons := serialOrder)
    (by rw [hpad]) (by rw [hpad]; rfl)
  rw [hhost] at h
  exact h

/-- While the strobe is held a port gives A, and its cursor stays 0. -/
theorem readMany_strobing (port : Port) (s : State) (n : Nat) :
    (readMany (portAddr port) n (cpuWrite 0x4016 1 s)).1.map (fun b => bit b 0) =
        (List.range n).map (fun k => Config.isPressed (s.host.draws + k) port .a) ∧
      ((readMany (portAddr port) n (cpuWrite 0x4016 1 s)).2.pad port).cursor = 0 := by
  obtain ⟨hpad, hhost⟩ := strobe_held port s
  obtain ⟨hbits, hrest⟩ := readMany_held (port := port) (s := cpuWrite 0x4016 1 s) n (by rw [hpad])
  rw [hbits, hrest, hpad, hhost]
  exact ⟨rfl, rfl⟩

/-- Bits 7 to 1 of any data read are the open bus. -/
theorem peek_pad_openBus (port : Port) (s : State) : peek s (portAddr port) &&& 0xFE = Config.ctrlOpenBus &&& 0xFE := by
  obtain ⟨hvalue, -, -⟩ := cpuRead_pad port s
  rw [peek, hvalue, Controller.dataRead]
  split_ifs <;> exact padByte_openBus _

/-- Settles O47: a strobed port, a held one, and the open bus, for the two ports. -/
theorem controllerProtocol : Obligations.ControllerProtocol := by
  refine ⟨fun s => ?strobed, fun s n => ?held, ?openBus⟩
  case strobed =>
    obtain ⟨hone, hdraws⟩ := readMany_strobed .one s
    obtain ⟨htwo, -⟩ := readMany_strobed .two s
    exact ⟨hone, htwo, hdraws⟩
  case held =>
    obtain ⟨hone, hcursor1⟩ := readMany_strobing .one s n
    obtain ⟨htwo, hcursor2⟩ := readMany_strobing .two s n
    exact ⟨hone, hcursor1, htwo, hcursor2⟩
  case openBus =>
    rintro s a (rfl | rfl)
    · exact peek_pad_openBus .one s
    · exact peek_pad_openBus .two s

end Sys2Proof.Machine
end

section
/-! Loading an image (51_cartridge.md R551 to R554, R580): the header by number, the cartridge of an accepted image byte
by byte, and the reset vector through it. -/

namespace Sys2Proof.Machine

/-! Sequences of bytes in a memory. -/

/-- After a sequence of writes its cells read as its values, the others as before. -/
theorem Memory.read_writeList {w : Nat} {m : Memory w} (h : m.wf = true) (k j : Nat) (vs : List (BitVec w)) :
    (m.writeList k vs).read j = if k ≤ j ∧ j < k + vs.length then vs.getD (j - k) 0 else m.read j := by
  induction vs generalizing m k with
  | nil => rw [Memory.writeList, if_neg (by simp)]
  | cons v rest ih =>
    rw [Memory.writeList, ih (Memory.wf_write h k v), Memory.read_write h, List.length_cons]
    by_cases hkj : k = j
    · subst hkj
      rw [if_neg (by omega), if_pos rfl, if_pos (by omega), Nat.sub_self, List.getD_cons_zero]
    · by_cases hrest : k + 1 ≤ j ∧ j < k + 1 + rest.length
      · have hnext : j - k = (j - (k + 1)) + 1 := by omega
        rw [if_pos hrest, if_pos (by omega), hnext, List.getD_cons_succ]
      · rw [if_neg hrest, if_neg hkj, if_neg (by omega)]

/-- Byte `k` of a slice of an image. -/
theorem getD_slice (img : List Byte) (off : Nat) {k n : Nat} (h : k < n) :
    ((img.drop off).take n).getD k 0 = img.getD (off + k) 0 := by
  rw [List.getD, List.getElem?_take_of_lt h, List.getElem?_drop, List.getD]

/-- A ROM made of a slice reads as the image. -/
theorem read_ofList_slice (img : List Byte) (off : Nat) {k n : Nat} (h : k < n) :
    (Memory.ofList 0 ((img.drop off).take n)).read k = img.getD (off + k) 0 := by
  rw [Memory.read_ofList, if_pos (Nat.zero_le k), Nat.sub_zero]
  exact getD_slice img off h

/-! The header (R551 to R553). -/

theorem mapperId_toNat (f6 f7 : Byte) : (mapperId f6 f7).toNat = 16 * (f7.toNat / 16) + f6.toNat / 16 := by
  have h6 := f6.isLt
  have h7 := f7.isLt
  rw [mapperId, append_toNat, field_toNat, field_toNat]
  omega

/-- The mapper of an id that has one (R578). -/
def mapperNamed (id : Nat) : Mapper := if id = 0 then .nrom else if id = 2 then .uxrom else .cnrom

/-- Ids 0, 2 and 3 have a mapper, the others none. -/
theorem mapperOf_eq (id : Byte) :
    mapperOf id = if id.toNat ∉ [0, 2, 3] then none else some (mapperNamed id.toNat) := by
  have hnat (k : Byte) : id = k ↔ id.toNat = k.toNat := BitVec.toNat_inj.symm
  by_cases h0 : id.toNat = 0
  · simp [mapperOf, mapperNamed, hnat, h0]
  by_cases h2 : id.toNat = 2
  · simp [mapperOf, mapperNamed, hnat, h2]
  by_cases h3 : id.toNat = 3
  · simp [mapperOf, mapperNamed, hnat, h3]
  · simp [mapperOf, hnat, h0, h2, h3]

/-- The magic by bytes. -/
theorem imageMagic_iff {img : List Byte} (h : 16 ≤ img.length) :
    img.take 4 = imageMagic ↔
      img.getD 0 0 = 0x4E ∧ img.getD 1 0 = 0x45 ∧ img.getD 2 0 = 0x53 ∧ img.getD 3 0 = 0x1A := by
  match img with
  | b0 :: b1 :: b2 :: b3 :: rest => simp [imageMagic]

theorem mirroringOf_eq (f6 : Byte) :
    mirroringOf f6 =
      if f6.toNat.testBit 3 then .fourScreen else if f6.toNat.testBit 0 then .vertical else .horizontal := by
  rw [mirroringOf, bit_eq_testBit, bit_eq_testBit]

/-- Where PRG data starts: after the header and the trainer, if there is one (R552). -/
def prgOffset (f6 : Byte) : Nat := 16 + (if bit f6 2 then 512 else 0)

theorem prgOffset_eq (f6 : Byte) : prgOffset f6 = if f6.toNat.testBit 2 then 528 else 16 := by
  rw [prgOffset, bit_eq_testBit]
  split <;> rfl

/-! The cartridge of an accepted image (R552, R554). -/

theorem Cart.ofImage_prgRom (init : PowerOnContents) (img : List Byte) (m : Mapper) (off : Nat) {k : Nat}
    (h : k < 16384 * (img.getD 4 0).toNat) : (Cart.ofImage init img m off).prgRom.read k = img.getD (off + k) 0 :=
  read_ofList_slice img off h

theorem Cart.ofImage_chrRom (init : PowerOnContents) (img : List Byte) (m : Mapper) (off : Nat)
    (hc : (img.getD 5 0).toNat ≠ 0) {k : Nat} (h : k < 8192 * (img.getD 5 0).toNat) :
    (Cart.ofImage init img m off).chr.read k = img.getD (off + 16384 * (img.getD 4 0).toNat + k) 0 := by
  rw [Cart.ofImage, if_neg hc]
  exact read_ofList_slice img _ h

/-- PRG RAM has the trainer at 0x1000-0x11FF. -/
theorem Cart.ofImage_prgRam {init : PowerOnContents} (hinit : init.prgRam.wf = true) {img : List Byte}
    (hlen : prgOffset (img.getD 6 0) ≤ img.length) (m : Mapper) (off k : Nat) :
    (Cart.ofImage init img m off).prgRam.read k =
      if (img.getD 6 0).toNat.testBit 2 = true ∧ 0x1000 ≤ k ∧ k < 0x1200 then img.getD (16 + (k - 0x1000)) 0
      else init.prgRam.read k := by
  rw [prgOffset_eq] at hlen
  rw [Cart.ofImage, bit_eq_testBit]
  dsimp only
  by_cases htrainer : (img.getD 6 0).toNat.testBit 2 = true
  · rw [if_pos htrainer] at hlen
    have hslice : ((img.drop 16).take 512).length = 512 := by
      rw [List.length_take, List.length_drop]
      omega
    rw [if_pos htrainer, Memory.read_writeList hinit, hslice]
    by_cases hk : 0x1000 ≤ k ∧ k < 0x1000 + 512
    · rw [if_pos hk, if_pos ⟨htrainer, hk⟩, getD_slice img 16 (by omega)]
    · rw [if_neg hk, if_neg fun hcell => hk hcell.2]
  · rw [if_neg htrainer, if_neg fun hcell => htrainer hcell.1]

/-! The checks (R552). -/

/-- `load` with its checks by number. -/
theorem load_eq (init : PowerOnContents) (img : List Byte) :
    load init img =
      if img.length < 16 then .error .truncated
      else if ¬(img.getD 0 0 = 0x4E ∧ img.getD 1 0 = 0x45 ∧ img.getD 2 0 = 0x53 ∧ img.getD 3 0 = 0x1A) then
        .error .badMagic
      else if (img.getD 4 0).toNat = 0 then .error .malformedHeader
      else if (mapperId (img.getD 6 0) (img.getD 7 0)).toNat ∉ [0, 2, 3] then
        .error (.unsupportedMapper (mapperId (img.getD 6 0) (img.getD 7 0)))
      else if img.length < prgOffset (img.getD 6 0) + 16384 * (img.getD 4 0).toNat + 8192 * (img.getD 5 0).toNat then
        .error .truncated
      else
        .ok (Cart.ofImage init img (mapperNamed (mapperId (img.getD 6 0) (img.getD 7 0)).toNat)
          (prgOffset (img.getD 6 0))) := by
  have hbanks : img.getD 4 0 = 0 ↔ (img.getD 4 0).toNat = 0 := BitVec.toNat_inj.symm
  unfold load
  by_cases hlen : img.length < 16
  · rw [if_pos hlen, if_pos hlen]
  · rw [if_neg hlen, if_neg hlen, mapperOf_eq]
    simp only [ne_eq, imageMagic_iff (Nat.not_lt.mp hlen), hbanks]
    by_cases hid : (mapperId (img.getD 6 0) (img.getD 7 0)).toNat ∉ [0, 2, 3]
    · rw [if_pos hid, if_pos hid]
    · rw [if_neg hid, if_neg hid]
      rfl

/-- An image that `load` accepts gives the cartridge `Cart.ofImage`. -/
theorem eq_ofImage_of_load {init : PowerOnContents} {img : List Byte} {c : Cart} (h : load init img = .ok c) :
    c = Cart.ofImage init img (mapperNamed (mapperId (img.getD 6 0) (img.getD 7 0)).toNat)
      (prgOffset (img.getD 6 0)) := by
  rw [load_eq] at h
  split_ifs at h
  cases h
  rfl

/-- Settles O48: the checks of `load_eq`, then the cartridge field by field. -/
theorem loadAcceptsAndRefuses : Obligations.LoadAcceptsAndRefuses := by
  intro init img hinit b np nc f6 id trainer off
  have hid : (mapperId (b 6) (b 7)).toNat = id := mapperId_toNat _ _
  have hoff : prgOffset (b 6) = off := prgOffset_eq _
  have hload := load_eq init img
  by_cases hlen : img.length < 16
  · rw [hload, if_pos hlen, if_pos hlen]
  rw [if_neg hlen] at hload ⊢
  by_cases hmagic : ¬(b 0 = 0x4E ∧ b 1 = 0x45 ∧ b 2 = 0x53 ∧ b 3 = 0x1A)
  · rw [hload, if_pos hmagic, if_pos hmagic]
  rw [if_neg hmagic] at hload ⊢
  by_cases hbanks : np = 0
  · rw [hload, if_pos hbanks, if_pos hbanks]
  rw [if_neg hbanks] at hload ⊢
  rw [hid] at hload
  by_cases hmapper : id ∉ [0, 2, 3]
  · rw [hload, if_pos hmapper, if_pos hmapper, ← hid, BitVec.ofNat_toNat, BitVec.setWidth_eq]
  rw [if_neg hmapper] at hload ⊢
  rw [hoff] at hload
  by_cases hshort : img.length < off + 16384 * np + 8192 * nc
  · rw [hload, if_pos hshort, if_pos hshort]
  rw [if_neg hshort] at hload ⊢
  obtain ⟨-, -, -, -, -, hram, -⟩ := PowerOnContents.wf_iff.mp hinit
  obtain ⟨hprgRam, -⟩ := Memory.ok_iff.mp hram
  refine ⟨_, hload, rfl, mirroringOf_eq _, rfl, fun k => Cart.ofImage_prgRom init img _ off, beq_eq_decide _ _, ?chrRam,
    ?chrRom, ?prgRam, rfl, rfl, rfl⟩
  case chrRam => exact fun hnc => ⟨if_pos hnc, if_pos hnc⟩
  case chrRom => exact fun hnc => ⟨if_neg hnc, fun k => Cart.ofImage_chrRom init img _ off hnc⟩
  case prgRam => exact Cart.ofImage_prgRam hprgRam (hoff.trans_le (by omega)) _ off

/-! The reset vector (R580). -/

/-- Without trainer the PRG data follows the header. -/
theorem prgOffset_noTrainer {f6 : Byte} (h : f6.toNat.testBit 2 = false) : prgOffset f6 = 16 := by
  rw [prgOffset_eq, h, if_neg Bool.false_ne_true]

/-- A powered-on machine is the power-on of the cartridge `load` gives (R700). -/
theorem load_of_powerOnImage {init : PowerOnContents} {img : List Byte} {s : State}
    (h : powerOnImage init img = .ok s) : ∃ cart : Cart, load init img = .ok cart ∧ s = State.powerOn init cart := by
  cases hl : load init img with
  | error e => cases (powerOnImage_error hl).symm.trans h
  | ok cart => exact ⟨cart, rfl, Except.ok.inj (h.symm.trans (powerOnImage_ok hl))⟩

/-- After power-on with a mapper 0 image without trainer the addresses from 0x8000 on read the image's banks (R567). -/
theorem peek_powerOnImage {init : PowerOnContents} {img : List Byte} {s : State} (h : powerOnImage init img = .ok s)
    (hmapper : mapperId (img.getD 6 0) (img.getD 7 0) = 0) (htrainer : (img.getD 6 0).toNat.testBit 2 = false)
    (hbanks : 0 < (img.getD 4 0).toNat) {a : Word} (ha : 0x8000 ≤ a.toNat) :
    peek s a = img.getD (16 + (a.toNat - 0x8000) % (16384 * (img.getD 4 0).toNat)) 0 := by
  obtain ⟨cart, hl, rfl⟩ := load_of_powerOnImage h
  have hcart := eq_ofImage_of_load hl
  rw [hmapper, prgOffset_noTrainer htrainer] at hcart
  have hnrom : cart.mapper = .nrom := congrArg Cart.mapper hcart
  have hcount : cart.prgBanks = (img.getD 4 0).toNat := congrArg Cart.prgBanks hcart
  have hread : peek (State.powerOn init cart) a = cart.cpuRead a := peek_cart (by bv_omega) _
  rw [hread, Cart.cpuRead_prgRom ha, Cart.prgIndex_fixed (by simp [hnrom]), hcount, hcart,
    Cart.ofImage_prgRom _ _ _ _ (Nat.mod_lt _ (by omega))]

/-- PC after power-on is the word at the reset vector (R703). -/
theorem powerOn_pc_toNat (init : PowerOnContents) (cart : Cart) :
    (State.powerOn init cart).cpu.pc.toNat =
      256 * (peek (State.powerOn init cart) 0xFFFD).toNat + (peek (State.powerOn init cart) 0xFFFC).toNat := by
  have hpc := congrArg (fun s : State => s.cpu.pc.toNat) (powerOn_eq init cart)
  have hhi := (peek (State.powerOn init cart) 0xFFFD).isLt
  have hlo := (peek (State.powerOn init cart) 0xFFFC).isLt
  exact hpc.trans (Nat.mod_eq_of_lt (by omega))

/-- Settles O49: `peek_powerOnImage` at the two bytes of the vector, for one bank and for two. -/
theorem resetVectorComesFromImage : Obligations.ResetVectorComesFromImage := by
  intro init img s h hmapper htrainer
  have hread {n : Byte} (hn : img.getD 4 0 = n) (hpos : 0 < n.toNat) {a : Word} (ha : 0x8000 ≤ a.toNat) :
      peek s a = img.getD (16 + (a.toNat - 0x8000) % (16384 * n.toNat)) 0 :=
    hn ▸ peek_powerOnImage h hmapper htrainer (hn.symm ▸ hpos) ha
  refine ⟨fun hone => ?one, fun htwo => ?two, ?pc⟩
  case one => exact ⟨hread hone (by decide) (by decide), hread hone (by decide) (by decide)⟩
  case two => exact ⟨hread htwo (by decide) (by decide), hread htwo (by decide) (by decide)⟩
  case pc =>
    obtain ⟨cart, -, rfl⟩ := load_of_powerOnImage h
    exact powerOn_pc_toNat init cart

end Sys2Proof.Machine
end
